-- ==== Sys2Proof/Config.lean ====
section
/-! DEFINITION. The platform parameters the spec leaves OPEN (00_scope.md R7; 20_memory.md R69; 60_exceptions.md R280; entry 9).
They have no body, so nothing can be proved about their values, and no rule of the block reads them (R7). -/

namespace Sys2Proof.Config

/-- TEA_BASE: where the register window sits in the host's address space (R69). DESIGN CHOICE (entry 9): held as a Nat. -/
opaque teaBase : Nat

/-- TEA_IRQ, first part: the interrupt number of the IRQ output at the platform's controller (R280). DESIGN CHOICE (entry 9): a Nat. -/
opaque teaIrqNumber : Nat

/-- TEA_IRQ, second part: the platform's code for the trigger type (R280). DESIGN CHOICE (entry 9): a Nat. -/
opaque teaIrqTrigger : Nat

end Sys2Proof.Config
end

