-- ==== Sys2Proof/Word.lean ====
section
/-! DEFINITION. The value types of TEA-CORE: Byte, Word, Block, Key (00_scope.md R7, R10, R13; 40_arith.md R100). -/

namespace Sys2Proof

/-- A Byte, 8 bits, always unsigned (R10). -/
abbrev Byte := BitVec 8

/-- A Word, "an unsigned 32-bit integer" (R13, R100). -/
abbrev Word := BitVec 32

/-- A Block, "an ordered pair of Words (L, R) representing 8 bytes" (R13). -/
@[ext] structure Block where
  l : Word
  r : Word
  deriving DecidableEq, Repr

/-- A Key, "a fixed-size ordered sequence of exactly four Words": k[0] to k[3] (R13, R25). -/
@[ext] structure Key where
  k0 : Word
  k1 : Word
  k2 : Word
  k3 : Word
  deriving DecidableEq, Repr

/-- One bus transaction T of 41 bits: W at bit 40, ADDR at bits 39:32, WDATA at bits 31:0 (R80). -/
abbrev Transaction := BitVec 41

end Sys2Proof
end

