-- ==== Sys2Proof/Syntax.lean ====
section
/-! DEFINITION. The syntax of TEA-CORE's unit of work: one constructor per row of spec/opcode_table.json (30_encoding.md R84, R85),
and the 18 registers of the window (20_memory.md R62). -/

namespace Sys2Proof

/-- The registers of the window, in the order of their offsets (R62). -/
inductive Reg where
  | id | ctrl | cmd | status | key0 | key1 | key2 | key3 | ivL | ivR | blkL | blkR | din | dout | len | nblk | chainL | chainR
  deriving DecidableEq, Repr

/-- One bus transaction that selects a row of the opcode table. A write carries its WDATA whole (R83); a read carries nothing,
because its WDATA is ignored (R83, R86; entry 10). Every operand is a Word by its type, so every term is well formed. -/
inductive Instr where
  /-- RD_ID: 44_host_registers.md R181 -/
  | rdId
  /-- RD_CTRL: 44_host_registers.md R183 -/
  | rdCtrl
  /-- RD_CMD: 44_host_registers.md R182 -/
  | rdCmd
  /-- RD_STATUS: 44_host_registers.md R185 -/
  | rdStatus
  /-- RD_KEY0: 44_host_registers.md R187 -/
  | rdKey0
  /-- RD_KEY1: 44_host_registers.md R188 -/
  | rdKey1
  /-- RD_KEY2: 44_host_registers.md R189 -/
  | rdKey2
  /-- RD_KEY3: 44_host_registers.md R190 -/
  | rdKey3
  /-- RD_IV_L: 44_host_registers.md R201 -/
  | rdIvL
  /-- RD_IV_R: 44_host_registers.md R202 -/
  | rdIvR
  /-- RD_BLK_L: 44_host_registers.md R205 -/
  | rdBlkL
  /-- RD_BLK_R: 44_host_registers.md R206 -/
  | rdBlkR
  /-- RD_DIN: 44_host_registers.md R198 -/
  | rdDin
  /-- RD_DOUT: 44_host_registers.md R197 -/
  | rdDout
  /-- RD_LEN: 44_host_registers.md R207 -/
  | rdLen
  /-- RD_NBLK: 44_host_registers.md R208 -/
  | rdNblk
  /-- RD_CHAIN_L: 44_host_registers.md R209 -/
  | rdChainL
  /-- RD_CHAIN_R: 44_host_registers.md R210 -/
  | rdChainR
  /-- WR_CTRL: 44_host_registers.md R184 -/
  | wrCtrl (wdata : Word)
  /-- WR_KEY0: 44_host_registers.md R192 -/
  | wrKey0 (wdata : Word)
  /-- WR_KEY1: 44_host_registers.md R193 -/
  | wrKey1 (wdata : Word)
  /-- WR_KEY2: 44_host_registers.md R194 -/
  | wrKey2 (wdata : Word)
  /-- WR_KEY3: 44_host_registers.md R195 -/
  | wrKey3 (wdata : Word)
  /-- WR_IV_L: 44_host_registers.md R199 -/
  | wrIvL (wdata : Word)
  /-- WR_IV_R: 44_host_registers.md R200 -/
  | wrIvR (wdata : Word)
  /-- WR_BLK_L: 44_host_registers.md R203 -/
  | wrBlkL (wdata : Word)
  /-- WR_BLK_R: 44_host_registers.md R204 -/
  | wrBlkR (wdata : Word)
  /-- WR_DIN: 44_host_registers.md R196 -/
  | wrDin (wdata : Word)
  /-- NOP: 45_commands.md R223 -/
  | nop
  /-- ENC_BLOCK: 45_commands.md R221 -/
  | encBlock
  /-- DEC_BLOCK: 45_commands.md R222 -/
  | decBlock
  /-- START: 45_commands.md R224 -/
  | start
  /-- FINISH: 45_commands.md R225 -/
  | finish
  /-- ABORT: 45_commands.md R226 -/
  | abort
  /-- CLRSTAT: 45_commands.md R227 -/
  | clrstat
  deriving DecidableEq, Repr

end Sys2Proof
end

