-- ==== Sys2Proof/WellFormed.lean ====
section
/-! DEFINITION. Which 41-bit words are legal transactions: the checks of 30_encoding.md R86, written on the word as a number and
independently of the decoder. An Instr needs no check of its own: its operands are Words by their types (R83). -/

namespace Sys2Proof.Transaction

/-- ADDR as a number: bits 39:32 of T (R80). -/
def offset (t : Transaction) : Nat := t.toNat / 2 ^ 32 % 2 ^ 8

/-- W = 1, a write: bit 40 of T (R80). -/
def writes (t : Transaction) : Bool := t.toNat / 2 ^ 40 == 1

/-- WDATA as a number: bits 31:0 of T (R80). -/
def dataNat (t : Transaction) : Nat := t.toNat % 2 ^ 32

/-- ADDR[1:0] = 0b00 (R66). -/
def aligned (t : Transaction) : Bool := t.offset % 4 == 0

/-- The offset is in the address map: at most 0x44 (R62). -/
def mapped (t : Transaction) : Bool := t.offset ≤ 0x44

/-- Not a write to a read-only register: ID, STATUS, DOUT, LEN, NBLK, CHAIN_L, CHAIN_R (R86). -/
def writable (t : Transaction) : Bool := !(t.writes && [0x00, 0x0C, 0x34, 0x38, 0x3C, 0x40, 0x44].contains t.offset)

/-- A write to CMD has RSV = 0 and a defined OP, that is WDATA at most 0x6 (R81, R84). -/
def commandDefined (t : Transaction) : Bool := !(t.writes && t.offset == 0x08) || t.dataNat ≤ 0x6

/-- A legal transaction passes every check of R86. -/
def wf (t : Transaction) : Bool := t.aligned && t.mapped && t.writable && t.commandDefined

end Sys2Proof.Transaction
end

