-- ==== Sys2Proof/Decode.lean ====
section
/-! DEFINITION. Decoding a transaction (30_encoding.md R82), total on all 41-bit words and rejecting by name, and the encoder (R80, R81, R89),
written from the same tables. There are no byte streams to decode: T is the block's whole instruction, of one length (R87). -/

namespace Sys2Proof

/-- Why a 41-bit word selects no row of the opcode table (R82). The machine goes on: the error is recorded (60_exceptions.md R272). -/
inductive Reject where
  /-- misaligned, unmapped, or a write to a read-only register (R82 steps 1 to 3) -/
  | badAccess
  /-- a write to CMD with RSV ≠ 0 or a reserved opcode (R220, R228) -/
  | illegalCmd
  deriving DecidableEq, Repr

namespace Transaction

/-- The field W, bit 40 (R80). -/
def isWrite (t : Transaction) : Bool := t.getLsbD 40

/-- The field ADDR, bits 39:32 (R80). -/
def addr (t : Transaction) : BitVec 8 := t.extractLsb' 32 8

/-- The field WDATA, bits 31:0 (R80). -/
def wdata (t : Transaction) : Word := t.extractLsb' 0 32

end Transaction

/-- The offset of a register in the window (20_memory.md R62). -/
def Reg.offset : Reg → BitVec 8
  | .id => 0x00#8
  | .ctrl => 0x04#8
  | .cmd => 0x08#8
  | .status => 0x0C#8
  | .key0 => 0x10#8
  | .key1 => 0x14#8
  | .key2 => 0x18#8
  | .key3 => 0x1C#8
  | .ivL => 0x20#8
  | .ivR => 0x24#8
  | .blkL => 0x28#8
  | .blkR => 0x2C#8
  | .din => 0x30#8
  | .dout => 0x34#8
  | .len => 0x38#8
  | .nblk => 0x3C#8
  | .chainL => 0x40#8
  | .chainR => 0x44#8

/-- The register at an offset; none where the offset is misaligned or unmapped (R62). -/
def Reg.atOffset (a : BitVec 8) : Option Reg :=
  if a = 0x00#8 then some .id
  else if a = 0x04#8 then some .ctrl
  else if a = 0x08#8 then some .cmd
  else if a = 0x0C#8 then some .status
  else if a = 0x10#8 then some .key0
  else if a = 0x14#8 then some .key1
  else if a = 0x18#8 then some .key2
  else if a = 0x1C#8 then some .key3
  else if a = 0x20#8 then some .ivL
  else if a = 0x24#8 then some .ivR
  else if a = 0x28#8 then some .blkL
  else if a = 0x2C#8 then some .blkR
  else if a = 0x30#8 then some .din
  else if a = 0x34#8 then some .dout
  else if a = 0x38#8 then some .len
  else if a = 0x3C#8 then some .nblk
  else if a = 0x40#8 then some .chainL
  else if a = 0x44#8 then some .chainR
  else none

/-- The offsets a write may not address: ID, STATUS, DOUT, LEN, NBLK, CHAIN_L, CHAIN_R (R82 step 3). -/
def isReadOnly (a : BitVec 8) : Bool :=
  a == 0x00#8 || a == 0x0C#8 || a == 0x34#8 || a == 0x38#8 || a == 0x3C#8 || a == 0x40#8 || a == 0x44#8

/-- The row of a read of a register (R85). -/
def readRow : Reg → Instr
  | .id => .rdId
  | .ctrl => .rdCtrl
  | .cmd => .rdCmd
  | .status => .rdStatus
  | .key0 => .rdKey0
  | .key1 => .rdKey1
  | .key2 => .rdKey2
  | .key3 => .rdKey3
  | .ivL => .rdIvL
  | .ivR => .rdIvR
  | .blkL => .rdBlkL
  | .blkR => .rdBlkR
  | .din => .rdDin
  | .dout => .rdDout
  | .len => .rdLen
  | .nblk => .rdNblk
  | .chainL => .rdChainL
  | .chainR => .rdChainR

/-- The row of a write to a register other than CMD (R85); a read-only register has none. -/
def writeRow (r : Reg) (d : Word) : Except Reject Instr :=
  match r with
  | .id => .error .badAccess
  | .ctrl => .ok (.wrCtrl d)
  | .cmd => .error .badAccess
  | .status => .error .badAccess
  | .key0 => .ok (.wrKey0 d)
  | .key1 => .ok (.wrKey1 d)
  | .key2 => .ok (.wrKey2 d)
  | .key3 => .ok (.wrKey3 d)
  | .ivL => .ok (.wrIvL d)
  | .ivR => .ok (.wrIvR d)
  | .blkL => .ok (.wrBlkL d)
  | .blkR => .ok (.wrBlkR d)
  | .din => .ok (.wrDin d)
  | .dout => .error .badAccess
  | .len => .error .badAccess
  | .nblk => .error .badAccess
  | .chainL => .error .badAccess
  | .chainR => .error .badAccess

/-- The command in the WDATA of a write to CMD: OP in bits 3:0, RSV in bits 31:4 must be 0 (R81, R84, R220). -/
def decodeCommand (d : Word) : Except Reject Instr :=
  let op : BitVec 4 := d.extractLsb' 0 4
  if d.extractLsb' 4 28 ≠ 0#28 then .error .illegalCmd
  else if op = 0x0#4 then .ok .nop
  else if op = 0x1#4 then .ok .encBlock
  else if op = 0x2#4 then .ok .decBlock
  else if op = 0x3#4 then .ok .start
  else if op = 0x4#4 then .ok .finish
  else if op = 0x5#4 then .ok .abort
  else if op = 0x6#4 then .ok .clrstat
  else .error .illegalCmd

/-- Decoding T, with the steps and their order of R82. The `none` of step 5 is never reached: steps 1 and 2 leave only mapped offsets. -/
def decode (t : Transaction) : Except Reject Instr :=
  if t.addr.extractLsb' 0 2 ≠ 0b00#2 then .error .badAccess
  else if 0x44#8 < t.addr then .error .badAccess
  else if t.isWrite = true ∧ isReadOnly t.addr = true then .error .badAccess
  else if t.isWrite = true ∧ t.addr = 0x08#8 then decodeCommand t.wdata
  else match Reg.atOffset t.addr with
    | none => .error .badAccess
    | some r => if t.isWrite then writeRow r t.wdata else .ok (readRow r)

/-- T = W·2^40 + ADDR·2^32 + WDATA (R80, R89). -/
def assemble (w : Bool) (r : Reg) (d : Word) : Transaction :=
  (BitVec.ofBool w).setWidth 41 <<< 40 ||| r.offset.setWidth 41 <<< 32 ||| d.setWidth 41

/-- The word of an instruction. A read's WDATA "should be 0" (R83). -/
def encode : Instr → Transaction
  | .rdId => assemble false .id 0
  | .rdCtrl => assemble false .ctrl 0
  | .rdCmd => assemble false .cmd 0
  | .rdStatus => assemble false .status 0
  | .rdKey0 => assemble false .key0 0
  | .rdKey1 => assemble false .key1 0
  | .rdKey2 => assemble false .key2 0
  | .rdKey3 => assemble false .key3 0
  | .rdIvL => assemble false .ivL 0
  | .rdIvR => assemble false .ivR 0
  | .rdBlkL => assemble false .blkL 0
  | .rdBlkR => assemble false .blkR 0
  | .rdDin => assemble false .din 0
  | .rdDout => assemble false .dout 0
  | .rdLen => assemble false .len 0
  | .rdNblk => assemble false .nblk 0
  | .rdChainL => assemble false .chainL 0
  | .rdChainR => assemble false .chainR 0
  | .wrCtrl d => assemble true .ctrl d
  | .wrKey0 d => assemble true .key0 d
  | .wrKey1 d => assemble true .key1 d
  | .wrKey2 d => assemble true .key2 d
  | .wrKey3 d => assemble true .key3 d
  | .wrIvL d => assemble true .ivL d
  | .wrIvR d => assemble true .ivR d
  | .wrBlkL d => assemble true .blkL d
  | .wrBlkR d => assemble true .blkR d
  | .wrDin d => assemble true .din d
  | .nop => assemble true .cmd 0x0#32
  | .encBlock => assemble true .cmd 0x1#32
  | .decBlock => assemble true .cmd 0x2#32
  | .start => assemble true .cmd 0x3#32
  | .finish => assemble true .cmd 0x4#32
  | .abort => assemble true .cmd 0x5#32
  | .clrstat => assemble true .cmd 0x6#32

/-- The mnemonic of an instruction's row, as spec/opcode_table.json spells it. -/
def Instr.mnemonic : Instr → String
  | .rdId => "RD_ID"
  | .rdCtrl => "RD_CTRL"
  | .rdCmd => "RD_CMD"
  | .rdStatus => "RD_STATUS"
  | .rdKey0 => "RD_KEY0"
  | .rdKey1 => "RD_KEY1"
  | .rdKey2 => "RD_KEY2"
  | .rdKey3 => "RD_KEY3"
  | .rdIvL => "RD_IV_L"
  | .rdIvR => "RD_IV_R"
  | .rdBlkL => "RD_BLK_L"
  | .rdBlkR => "RD_BLK_R"
  | .rdDin => "RD_DIN"
  | .rdDout => "RD_DOUT"
  | .rdLen => "RD_LEN"
  | .rdNblk => "RD_NBLK"
  | .rdChainL => "RD_CHAIN_L"
  | .rdChainR => "RD_CHAIN_R"
  | .wrCtrl _ => "WR_CTRL"
  | .wrKey0 _ => "WR_KEY0"
  | .wrKey1 _ => "WR_KEY1"
  | .wrKey2 _ => "WR_KEY2"
  | .wrKey3 _ => "WR_KEY3"
  | .wrIvL _ => "WR_IV_L"
  | .wrIvR _ => "WR_IV_R"
  | .wrBlkL _ => "WR_BLK_L"
  | .wrBlkR _ => "WR_BLK_R"
  | .wrDin _ => "WR_DIN"
  | .nop => "NOP"
  | .encBlock => "ENC_BLOCK"
  | .decBlock => "DEC_BLOCK"
  | .start => "START"
  | .finish => "FINISH"
  | .abort => "ABORT"
  | .clrstat => "CLRSTAT"

/-- One row of the opcode table: T selects it when (T & mask) = pattern (R92). -/
structure OpcodeRow where
  mnemonic : String
  pattern  : BitVec 41
  mask     : BitVec 41
  deriving DecidableEq, Repr

/-- A word selects a row (R92). -/
def OpcodeRow.selects (row : OpcodeRow) (t : Transaction) : Bool := (t &&& row.mask) == row.pattern

/-- The 18 read rows of spec/opcode_table.json, transcribed (R92: read rows mask only W and ADDR). -/
def readRows : List OpcodeRow :=
  [⟨"RD_ID", 0x00000000000#41, 0x1FF00000000#41⟩,
   ⟨"RD_CTRL", 0x00400000000#41, 0x1FF00000000#41⟩,
   ⟨"RD_CMD", 0x00800000000#41, 0x1FF00000000#41⟩,
   ⟨"RD_STATUS", 0x00C00000000#41, 0x1FF00000000#41⟩,
   ⟨"RD_KEY0", 0x01000000000#41, 0x1FF00000000#41⟩,
   ⟨"RD_KEY1", 0x01400000000#41, 0x1FF00000000#41⟩,
   ⟨"RD_KEY2", 0x01800000000#41, 0x1FF00000000#41⟩,
   ⟨"RD_KEY3", 0x01C00000000#41, 0x1FF00000000#41⟩,
   ⟨"RD_IV_L", 0x02000000000#41, 0x1FF00000000#41⟩,
   ⟨"RD_IV_R", 0x02400000000#41, 0x1FF00000000#41⟩,
   ⟨"RD_BLK_L", 0x02800000000#41, 0x1FF00000000#41⟩,
   ⟨"RD_BLK_R", 0x02C00000000#41, 0x1FF00000000#41⟩,
   ⟨"RD_DIN", 0x03000000000#41, 0x1FF00000000#41⟩,
   ⟨"RD_DOUT", 0x03400000000#41, 0x1FF00000000#41⟩,
   ⟨"RD_LEN", 0x03800000000#41, 0x1FF00000000#41⟩,
   ⟨"RD_NBLK", 0x03C00000000#41, 0x1FF00000000#41⟩,
   ⟨"RD_CHAIN_L", 0x04000000000#41, 0x1FF00000000#41⟩,
   ⟨"RD_CHAIN_R", 0x04400000000#41, 0x1FF00000000#41⟩]

/-- The 10 register-write rows of spec/opcode_table.json, transcribed. -/
def writeRows : List OpcodeRow :=
  [⟨"WR_CTRL", 0x10400000000#41, 0x1FF00000000#41⟩,
   ⟨"WR_KEY0", 0x11000000000#41, 0x1FF00000000#41⟩,
   ⟨"WR_KEY1", 0x11400000000#41, 0x1FF00000000#41⟩,
   ⟨"WR_KEY2", 0x11800000000#41, 0x1FF00000000#41⟩,
   ⟨"WR_KEY3", 0x11C00000000#41, 0x1FF00000000#41⟩,
   ⟨"WR_IV_L", 0x12000000000#41, 0x1FF00000000#41⟩,
   ⟨"WR_IV_R", 0x12400000000#41, 0x1FF00000000#41⟩,
   ⟨"WR_BLK_L", 0x12800000000#41, 0x1FF00000000#41⟩,
   ⟨"WR_BLK_R", 0x12C00000000#41, 0x1FF00000000#41⟩,
   ⟨"WR_DIN", 0x13000000000#41, 0x1FF00000000#41⟩]

/-- The 7 command rows of spec/opcode_table.json, transcribed (R92: command rows mask all 41 bits). -/
def commandRows : List OpcodeRow :=
  [⟨"NOP", 0x10800000000#41, 0x1FFFFFFFFFF#41⟩,
   ⟨"ENC_BLOCK", 0x10800000001#41, 0x1FFFFFFFFFF#41⟩,
   ⟨"DEC_BLOCK", 0x10800000002#41, 0x1FFFFFFFFFF#41⟩,
   ⟨"START", 0x10800000003#41, 0x1FFFFFFFFFF#41⟩,
   ⟨"FINISH", 0x10800000004#41, 0x1FFFFFFFFFF#41⟩,
   ⟨"ABORT", 0x10800000005#41, 0x1FFFFFFFFFF#41⟩,
   ⟨"CLRSTAT", 0x10800000006#41, 0x1FFFFFFFFFF#41⟩]

/-- The opcode table, 35 rows (R92). -/
def opcodeTable : List OpcodeRow := readRows ++ writeRows ++ commandRows

/-- The host's view of the decoder: the low `nbits` bits of `w` are the transaction, numbered as R80 numbers them.
A value of more than 41 bits is no transaction (R212; entry 11). -/
def decodeTableWord (nbits w : Nat) : Option Instr :=
  let v := w % 2 ^ nbits
  if v < 2 ^ 41 then
    match decode (BitVec.ofNat 41 v) with
    | .ok i => some i
    | .error _ => none
  else none

end Sys2Proof
end

