-- ==== Sys2Proof/Machine/State.lean ====
section
/-! DEFINITION. The state of TEA-CORE, every element of 10_state.md rule R48 at the width given there, as plain data; the turns of the
agents; the reasons a step can stop; and the state after reset. -/

namespace Sys2Proof.Machine

/-- CTRL.MODE and the latch cmode: 0 = ECB, 1 = CBC (R22, R39). -/
inductive Mode where
  | ecb | cbc
  deriving DecidableEq, Repr

/-- CTRL.DIR and the latch cdir: 0 = encrypt, 1 = decrypt (R22, R39). -/
inductive Dir where
  | enc | dec
  deriving DecidableEq, Repr

/-- The three used bits of CTRL; bits 31:3 read as 0 and ignore writes (R22). -/
@[ext] structure Ctrl where
  mode : Mode
  dir  : Dir
  ie   : Bool
  deriving DecidableEq, Repr

/-- The sequencer state st: IDLE = 0, BLK_RUN = 1, SESS_WAIT = 2, SESS_RUN = 3 (R37). -/
inductive SeqState where
  | idle | blkRun | sessWait | sessRun
  deriving DecidableEq, Repr

/-- The error codes 0x0 to 0xB; 0xC to 0xF are never produced (60_exceptions.md R271, 93 I11; entry 14). -/
inductive ErrCode where
  | none | keyMalformed | ivMalformed | illegalCmd | busy | noSession | writeLocked | overrun | underrun | badAccess | lenOverflow
  | outputPending
  deriving DecidableEq, Repr

/-- One turn of an agent (00_scope.md R8, 46_sequencer.md R256). Which agent moves next is data in State (entry 1). -/
inductive Turn where
  /-- the HOST issues the transaction T (R80) -/
  | host (t : Transaction)
  /-- the CORE takes its enabled step, if there is one (R240; entry 3) -/
  | core
  /-- the environment resets the block (70_reset_and_hazards.md R300) -/
  | reset
  /-- an access outside the 41-bit format, such as a sub-word access or a burst (R212, 93 I15; entry 6) -/
  | foreign
  deriving DecidableEq, Repr

/-- The state. `inputs` and `rdata` are the model's own fields (entries 1 and 4); every other field is an element of R48. -/
structure State where
  /-- the turns still to come, the next one first (entry 1) -/
  inputs  : List Turn
  /-- the RDATA the last read transaction returned to the host; none when no read has been performed since reset (entry 4) -/
  rdata   : Option Word
  /-- CTRL (R22) -/
  ctrl    : Ctrl
  /-- KEY0 to KEY3 (R25) -/
  key     : Key
  /-- KEY_OK, bit n set once KEYn is written (R25) -/
  keyOk   : BitVec 4
  /-- IV_L, IV_R (R26) -/
  iv      : Block
  /-- IV_OK, bit 0 for IV_L and bit 1 for IV_R (R26) -/
  ivOk    : BitVec 2
  /-- BLK_L, BLK_R (R27) -/
  blk     : Block
  /-- CHAIN_L, CHAIN_R (R32) -/
  chain   : Block
  /-- LEN (R30) -/
  len     : Word
  /-- NBLK (R31) -/
  nblk    : Word
  /-- DONE (R34) -/
  done    : Bool
  /-- ERR (R35) -/
  err     : Bool
  /-- ERRCODE (R35) -/
  errCode : ErrCode
  /-- st (R37) -/
  st      : SeqState
  /-- fin (R38) -/
  fin     : Bool
  /-- cdir (R39) -/
  cdir    : Dir
  /-- cmode (R39) -/
  cmode   : Mode
  /-- W_L, W_R (R40) -/
  w       : Block
  /-- SUM (R41) -/
  sum     : Word
  /-- RND (R42) -/
  rnd     : BitVec 6
  /-- IN_L, IN_R (R43) -/
  inBlk   : Block
  /-- PACK[0..7] (R44) -/
  pack    : Vector Byte 8
  /-- PCNT (R44) -/
  pcnt    : BitVec 4
  /-- OBUF[0..7] (R45) -/
  obuf    : Vector Byte 8
  /-- OCNT (R45) -/
  ocnt    : BitVec 4
  deriving DecidableEq, Repr

/-- TEA-CORE has no fault: "TEA-CORE has no trap mechanism" (60_exceptions.md R270) and "A transaction never waits" (R211). Errors are
recorded in ERR and ERRCODE and the machine goes on. So no step raises a fault, and there is no constructor (safe). -/
inductive Fault where
  deriving DecidableEq, Repr

/-- Why the model stops. -/
inductive Refusal where
  /-- exec's arm for an instruction without a meaning would raise it; no arm does (safe) -/
  | notModelled (mnemonic : String)
  /-- raised by step at a turn `foreign`: "A model gives such a transaction no move" (R212, 93 I15; safe, entry 6) -/
  | outsideFormat
  deriving DecidableEq, Repr

/-- The state after reset: every element at the value of R48; no turn is scheduled and no read has been performed (entries 1, 4). -/
def State.reset : State where
  inputs  := []
  rdata   := none
  ctrl    := ⟨.ecb, .enc, false⟩
  key     := ⟨0, 0, 0, 0⟩
  keyOk   := 0b0000#4
  iv      := ⟨0, 0⟩
  ivOk    := 0b00#2
  blk     := ⟨0, 0⟩
  chain   := ⟨0, 0⟩
  len     := 0
  nblk    := 0
  done    := false
  err     := false
  errCode := .none
  st      := .idle
  fin     := false
  cdir    := .enc
  cmode   := .ecb
  w       := ⟨0, 0⟩
  sum     := 0
  rnd     := 0
  inBlk   := ⟨0, 0⟩
  pack    := #v[0, 0, 0, 0, 0, 0, 0, 0]
  pcnt    := 0
  obuf    := #v[0, 0, 0, 0, 0, 0, 0, 0]
  ocnt    := 0

end Sys2Proof.Machine
end

