-- ==== Sys2Proof/Machine/Codec.lean ====
section
/-! DEFINITION. The block codec: the source's pure functions (43_codec.md part 1) and the padded take (R171). -/

namespace Sys2Proof.Machine

/-- `word_of_bytes(x0, x1, x2, x3)`, big-endian: the first byte is the most significant (R160). -/
def wordOfBytes (x0 x1 x2 x3 : Byte) : Word := x0 ++ x1 ++ x2 ++ x3

/-- Byte `i` of `bytes_of_word(w)`: bits [31:24], [23:16], [15:8], [7:0] (R161). -/
def byteOfWord (w : Word) (i : Nat) : Byte := w.extractLsb' (24 - 8 * i) 8

/-- `bytes_of_word(w)` (R161). -/
def bytesOfWord (w : Word) : List Byte := [byteOfWord w 0, byteOfWord w 1, byteOfWord w 2, byteOfWord w 3]

/-- `block_of_bytes(x[0..8))` (R162). -/
def blockOfBytes (x : Vector Byte 8) : Block :=
  ⟨wordOfBytes x[0] x[1] x[2] x[3], wordOfBytes x[4] x[5] x[6] x[7]⟩

/-- `bytes_of_block((L, R))`: L's 4 big-endian bytes, then R's (R163). -/
def bytesOfBlock (b : Block) : Vector Byte 8 :=
  #v[byteOfWord b.l 0, byteOfWord b.l 1, byteOfWord b.l 2, byteOfWord b.l 3,
     byteOfWord b.r 0, byteOfWord b.r 1, byteOfWord b.r 2, byteOfWord b.r 3]

/-- `pad(data)`: zero bytes on the right up to a multiple of 8 (R164). -/
def pad (data : List Byte) : List Byte := data ++ List.replicate ((8 - data.length % 8) % 8) 0x00

/-- Consecutive 8-byte chunks, each decoded as one Block (R165). -/
def chunks : List Byte → List Block
  | x0 :: x1 :: x2 :: x3 :: x4 :: x5 :: x6 :: x7 :: rest => blockOfBytes #v[x0, x1, x2, x3, x4, x5, x6, x7] :: chunks rest
  | _ => []

/-- `bytes_to_blocks(data) -> (blocks, original_length)` (R165). -/
def bytesToBlocks (data : List Byte) : List Block × Nat := (chunks (pad data), data.length)

/-- `blocks_to_bytes(blocks)`, never truncated (R166). -/
def blocksToBytes (blocks : List Block) : List Byte := blocks.flatMap fun b => (bytesOfBlock b).toList

/-- The packer and the output buffer when cleared: eight zero bytes (R171, R224, R226). -/
def zeroBytes : Vector Byte 8 := #v[0, 0, 0, 0, 0, 0, 0, 0]

/-- `take_block(PACK, PCNT)`: bytes at or beyond the fill count are taken as 0x00 (R171; the conditional is normative). -/
def takeBlock (pack : Vector Byte 8) (pcnt : BitVec 4) : Block :=
  blockOfBytes (Vector.ofFn fun i : Fin 8 => if i.val < pcnt.toNat then pack[i] else 0x00)

end Sys2Proof.Machine
end

