-- ==== Sys2Proof/Machine/Flags.lean ====
section
/-! DEFINITION. Every flag the spec computes from the state: BUSY, SESSION, IN_READY, OUT_VALID, the IRQ level and the STATUS word
(10_state.md R24, R36, R37, R47). The datapath has no flag of its own (40_arith.md R110). -/

namespace Sys2Proof.Machine

/-- `BUSY ≡ st ∈ {BLK_RUN, SESS_RUN}` (R37). -/
def State.busy (s : State) : Bool := s.st == .blkRun || s.st == .sessRun

/-- `SESSION ≡ st ∈ {SESS_WAIT, SESS_RUN}` (R37). -/
def State.session (s : State) : Bool := s.st == .sessWait || s.st == .sessRun

/-- `IN_READY ≡ SESSION ∧ fin = 0 ∧ PCNT < 8` (R47). It does not look at OBUF: with output unread it is 1 again once SESS_TAKE empties the
packer, where R312 (a) says that `wait_in` hangs. DESIGN CHOICE (entry 18): R47 and R243 are followed. -/
def State.inReady (s : State) : Bool := s.session && !s.fin && decide (s.pcnt < 8#4)

/-- `OUT_VALID ≡ OCNT > 0` (R47). -/
def State.outValid (s : State) : Bool := decide (0#4 < s.ocnt)

/-- `IRQ = CTRL.IE & (DONE | ERR)`, the level output (R36, R280). -/
def State.irq (s : State) : Bool := s.ctrl.ie && (s.done || s.err)

/-- The 4-bit ERRCODE of an error (60_exceptions.md R271). -/
def ErrCode.bits : ErrCode → BitVec 4
  | .none          => 0x0
  | .keyMalformed  => 0x1
  | .ivMalformed   => 0x2
  | .illegalCmd    => 0x3
  | .busy          => 0x4
  | .noSession     => 0x5
  | .writeLocked   => 0x6
  | .overrun       => 0x7
  | .underrun      => 0x8
  | .badAccess     => 0x9
  | .lenOverflow   => 0xA
  | .outputPending => 0xB

/-- The STATUS word, from its pseudocode (R24). -/
def State.statusWord (s : State) : Word :=
  BitVec.setWidth 32
    (s.ocnt ++ s.pcnt ++ 0b00#2 ++ s.ivOk ++ s.keyOk ++ s.errCode.bits
      ++ BitVec.ofBool s.irq ++ BitVec.ofBool s.err ++ BitVec.ofBool s.done ++ BitVec.ofBool s.outValid
      ++ BitVec.ofBool s.inReady ++ BitVec.ofBool s.fin ++ BitVec.ofBool s.session ++ BitVec.ofBool s.busy)

end Sys2Proof.Machine
end

