-- ==== Sys2Proof/Machine/Arith.lean ====
section
/-! DEFINITION. The 32-bit modular adder, subtractor, shifter and XOR, and the wired constants (40_arith.md). There is no rotate (R106). -/

namespace Sys2Proof.Machine

/-- `add32(a, b) = (a + b) mod 2^32`; the carry is discarded (R101). -/
def add32 (a b : Word) : Word := a + b

/-- `sub32(a, b) = (a - b) mod 2^32`; the borrow is discarded (R102). -/
def sub32 (a b : Word) : Word := a - b

/-- `shl32(a, n) = (a * 2^n) mod 2^32`, logical; the datapath wires n = 4 and n = 5 (R103). -/
def shl32 (a : Word) (n : Nat) : Word := a <<< n

/-- `shr32(a, n) = floor(a / 2^n)`, zero fill; the datapath wires n = 5 (R104). -/
def shr32 (a : Word) (n : Nat) : Word := a >>> n

/-- `xor32(a, b)`, bitwise (R105). -/
def xor32 (a b : Word) : Word := a ^^^ b

/-- `xorB(a, b)`, two independent lanes (R107). -/
def xorB (a b : Block) : Block := ⟨xor32 a.l b.l, xor32 a.r b.r⟩

/-- DELTA (R108). -/
def delta : Word := 0x9E3779B9

/-- SUM_DEC_INIT, "the wired constant Word" (R109, 92 D32). -/
def sumDecInit : Word := 0xC6EF3720

end Sys2Proof.Machine
end

