-- ==== Sys2Proof/Machine/Tea.lean ====
section
/-! DEFINITION. The TEA round function and the block primitive (41_tea.md). -/

namespace Sys2Proof.Machine

/-- `F(x, s, ka, kb) = ((x << 4) + ka) ^ (x + s) ^ ((x >> 5) + kb)` (R120). -/
def mixF (x s ka kb : Word) : Word :=
  xor32 (xor32 (add32 (shl32 x 4) ka) (add32 x s)) (add32 (shr32 x 5) kb)

/-- One encryption round; step 3 reads the L just updated, and both steps the sum just raised (R121). -/
def encRound (b : Block) (sum : Word) (k : Key) : Block × Word :=
  let sum' := add32 sum delta
  let l' := add32 b.l (mixF b.r sum' k.k0 k.k1)
  let r' := add32 b.r (mixF l' sum' k.k2 k.k3)
  (⟨l', r'⟩, sum')

/-- One decryption round; step 2 reads the R recovered in step 1, and the sum falls last (R122; 90_conflicts.md C2). -/
def decRound (b : Block) (sum : Word) (k : Key) : Block × Word :=
  let r' := sub32 b.r (mixF b.l sum k.k2 k.k3)
  let l' := sub32 b.l (mixF r' sum k.k0 k.k1)
  (⟨l', r'⟩, sub32 sum delta)

/-- `n` encryption rounds from a Block and a sum (R123's loop, R260). -/
def encRounds (k : Key) : Nat → Block → Word → Block × Word
  | 0, b, sum => (b, sum)
  | n + 1, b, sum => let p := encRounds k n b sum; encRound p.1 p.2 k

/-- `n` decryption rounds from a Block and a sum (R124's loop, R260). -/
def decRounds (k : Key) : Nat → Block → Word → Block × Word
  | 0, b, sum => (b, sum)
  | n + 1, b, sum => let p := decRounds k n b sum; decRound p.1 p.2 k

/-- `encrypt_block(p, k)`: exactly 32 rounds from sum = 0 (R123). -/
def encryptBlock (p : Block) (k : Key) : Block := (encRounds k 32 p 0).1

/-- `decrypt_block(c, k)`: exactly 32 rounds from SUM_DEC_INIT (R124). -/
def decryptBlock (c : Block) (k : Key) : Block := (decRounds k 32 c sumDecInit).1

end Sys2Proof.Machine
end

