-- ==== Sys2Proof/Machine/Modes.lean ====
section
/-! DEFINITION. The ECB and CBC modes: the source's reference functions over Block Sequences (42_modes.md part 1) and the per-block
transfer functions of the sequencer (part 2). -/

namespace Sys2Proof.Machine

/-- `ecb_encrypt(blocks, k)` (R140); ecbDecrypt undoes it (R144). -/
def ecbEncrypt (blocks : List Block) (k : Key) : List Block := blocks.map fun b => encryptBlock b k

/-- `ecb_decrypt(blocks, k)` (R141), ecb_encrypt's inverse (R144). -/
def ecbDecrypt (blocks : List Block) (k : Key) : List Block := blocks.map fun c => decryptBlock c k

/-- `cbc_encrypt(blocks, k, iv)`: prev starts at iv and takes each ciphertext block produced (R142); cbcDecrypt undoes it from the same
iv (R144). -/
def cbcEncrypt (k : Key) : List Block → Block → List Block
  | [], _ => []
  | p :: ps, prev => let c := encryptBlock (xorB p prev) k; c :: cbcEncrypt k ps c

/-- `cbc_decrypt(blocks, k, iv)`: prev starts at iv and takes each ciphertext block consumed (R143), cbc_encrypt's inverse (R144). -/
def cbcDecrypt (k : Key) : List Block → Block → List Block
  | [], _ => []
  | c :: cs, prev => xorB (decryptBlock c k) prev :: cbcDecrypt k cs c

/-- The mode function a session runs, selected by (cmode, cdir) (R152, R262). -/
def modeFunction (m : Mode) (d : Dir) (k : Key) (iv : Block) (blocks : List Block) : List Block :=
  match m, d with
  | .ecb, .enc => ecbEncrypt blocks k
  | .ecb, .dec => ecbDecrypt blocks k
  | .cbc, .enc => cbcEncrypt k blocks iv
  | .cbc, .dec => cbcDecrypt k blocks iv

/-- `mode_in(cmode, cdir, B, CH)` (R148). -/
def modeIn (m : Mode) (d : Dir) (b ch : Block) : Block :=
  match m, d with
  | .ecb, .enc => b
  | .ecb, .dec => b
  | .cbc, .enc => xorB b ch
  | .cbc, .dec => b

/-- `mode_out(cmode, cdir, Wf, CH)` (R149). -/
def modeOut (m : Mode) (d : Dir) (wf ch : Block) : Block :=
  match m, d with
  | .ecb, .enc => wf
  | .ecb, .dec => wf
  | .cbc, .enc => wf
  | .cbc, .dec => xorB wf ch

/-- `chain_next(cmode, cdir, Wf, IN, CH)` (R150). -/
def chainNext (m : Mode) (d : Dir) (wf inb ch : Block) : Block :=
  match m, d with
  | .ecb, .enc => ch
  | .ecb, .dec => ch
  | .cbc, .enc => wf
  | .cbc, .dec => inb

/-- The block primitive in a direction (R245's rounds taken 32 times). -/
def primitive (d : Dir) (b : Block) (k : Key) : Block :=
  match d with
  | .enc => encryptBlock b k
  | .dec => decryptBlock b k

/-- The outputs of the transfer functions over a Block Sequence, from a chain Block (R152). -/
def transferRun (m : Mode) (d : Dir) (k : Key) : List Block → Block → List Block
  | [], _ => []
  | b :: bs, ch =>
    let wf := primitive d (modeIn m d b ch) k
    modeOut m d wf ch :: transferRun m d k bs (chainNext m d wf b ch)

end Sys2Proof.Machine
end

