-- ==== Sys2Proof/Machine/Operands.lean ====
section
/-! DEFINITION. Operand assembly: what a transaction takes from WDATA and how a result stands in RDATA (30_encoding.md R83). -/

namespace Sys2Proof.Machine

/-- The ID register's constant (10_state.md R33). -/
def idValue : Word := 0x54454131

/-- The mode bit, 0 = ECB and 1 = CBC (R22). -/
def Mode.ofBit (b : Bool) : Mode := if b then .cbc else .ecb

/-- The mode as a bit (R22). -/
def Mode.bit (m : Mode) : Bool := m == .cbc

/-- The direction bit, 0 = encrypt and 1 = decrypt (R22). -/
def Dir.ofBit (b : Bool) : Dir := if b then .dec else .enc

/-- The direction as a bit (R22). -/
def Dir.bit (d : Dir) : Bool := d == .dec

/-- Write CTRL: MODE, DIR, IE from WDATA[0], WDATA[1], WDATA[2]; WDATA[31:3] is ignored (R83, R184). -/
def ctrlOfWord (d : Word) : Ctrl := ⟨Mode.ofBit (d.getLsbD 0), Dir.ofBit (d.getLsbD 1), d.getLsbD 2⟩

/-- Read CTRL: `zext_32(IE ++ DIR ++ MODE)` (R183). -/
def wordOfCtrl (c : Ctrl) : Word :=
  BitVec.setWidth 32 (BitVec.ofBool c.ie ++ BitVec.ofBool c.dir.bit ++ BitVec.ofBool c.mode.bit)

/-- Write DIN: the byte WDATA[7:0]; WDATA[31:8] is ignored (R83, R196). -/
def byteOperand (d : Word) : Byte := d.extractLsb' 0 8

/-- Read DOUT: the byte in RDATA[7:0], zero-extended (R83, R197). -/
def zextByte (x : Byte) : Word := BitVec.setWidth 32 x

end Sys2Proof.Machine
end

