-- ==== Sys2Proof/Machine/Ops.lean ====
section
/-! DEFINITION. The named operations on the state that the transactions and the core steps share. There is no memory (20_memory.md R60);
the registers of the window are the whole address space. Assignments of one rule take effect together (00_scope.md R11). -/

namespace Sys2Proof.Machine

/-- The schedule replaced (entry 1). -/
def State.withInputs (s : State) (rest : List Turn) : State := { s with inputs := rest }

/-- A read's result: RDATA goes to the host (R80; entry 4). -/
def State.answer (s : State) (v : Word) : State := { s with rdata := some v }

/-- `raise Error(code)`, the one error-recording action: ERR is set, and ERRCODE takes the code only if ERR was 0 (60_exceptions.md R272).
It is TEA-CORE's whole "exception entry": no state is saved and no vector is taken (R270, R281). -/
def State.raise (s : State) (code : ErrCode) : State :=
  { s with err := true, errCode := if s.err then s.errCode else code }

/-- CLRSTAT's action, the nearest thing to a return from an error (R227, R281). -/
def State.clearStatus (s : State) : State := { s with done := false, err := false, errCode := .none }

/-- The code a rejected transaction records (R82, R180, R220, R228). -/
def Reject.code : Reject → ErrCode
  | .badAccess  => .badAccess
  | .illegalCmd => .illegalCmd

/-- A transaction that selects no row: the error is recorded, and a read returns 0; nothing else changes (R86, R180, R270). -/
def State.reject (s : State) (why : Reject) (isWrite : Bool) : State :=
  if isWrite then s.raise (Reject.code why) else (s.raise (Reject.code why)).answer 0

/-- The write lock of KEYn, IV_L, IV_R, BLK_L and BLK_R: while st ≠ IDLE the write is refused with WRITE_LOCKED (R191). -/
def State.lockedWrite (s : State) (written : State) : State := if s.st = .idle then written else s.raise .writeLocked

/-- KEYn ← WDATA and KEY_OK[n] ← 1, for n = 0 (R192). -/
def State.putKey0 (s : State) (d : Word) : State := { s with key := { s.key with k0 := d }, keyOk := s.keyOk ||| 0b0001#4 }

/-- KEY1 ← WDATA and KEY_OK[1] ← 1 (R193). -/
def State.putKey1 (s : State) (d : Word) : State := { s with key := { s.key with k1 := d }, keyOk := s.keyOk ||| 0b0010#4 }

/-- KEY2 ← WDATA and KEY_OK[2] ← 1 (R194). -/
def State.putKey2 (s : State) (d : Word) : State := { s with key := { s.key with k2 := d }, keyOk := s.keyOk ||| 0b0100#4 }

/-- KEY3 ← WDATA and KEY_OK[3] ← 1 (R195). -/
def State.putKey3 (s : State) (d : Word) : State := { s with key := { s.key with k3 := d }, keyOk := s.keyOk ||| 0b1000#4 }

/-- IV_L ← WDATA and IV_OK[0] ← 1 (R199). -/
def State.putIvL (s : State) (d : Word) : State := { s with iv := { s.iv with l := d }, ivOk := s.ivOk ||| 0b01#2 }

/-- IV_R ← WDATA and IV_OK[1] ← 1 (R200). -/
def State.putIvR (s : State) (d : Word) : State := { s with iv := { s.iv with r := d }, ivOk := s.ivOk ||| 0b10#2 }

/-- BLK_L ← WDATA (R203). -/
def State.putBlkL (s : State) (d : Word) : State := { s with blk := { s.blk with l := d } }

/-- BLK_R ← WDATA (R204). -/
def State.putBlkR (s : State) (d : Word) : State := { s with blk := { s.blk with r := d } }

/-- CTRL ← its three bits of WDATA; never locked (R184). -/
def State.putCtrl (s : State) (d : Word) : State := { s with ctrl := ctrlOfWord d }

/-- The packer push: PACK[PCNT] ← x; PCNT ← PCNT + 1; LEN ← LEN + 1 (43_codec.md R170; outside 0..8, entry 7). -/
def State.pushByte (s : State) (x : Byte) : State :=
  { s with pack := s.pack.setIfInBounds s.pcnt.toNat x, pcnt := s.pcnt + 1, len := s.len + 1 }

/-- The next byte to be read: OBUF[8 - OCNT] (R45; outside 0..8, entry 7). -/
def State.nextOut (s : State) : Byte := s.obuf[8 - s.ocnt.toNat]?.getD 0

/-- The unpacker pop: OCNT ← OCNT - 1 (R173). -/
def State.popByte (s : State) : State := { s with ocnt := s.ocnt - 1 }

/-- A direction's initial sum: 0 or SUM_DEC_INIT (R41, R243). -/
def sumInit : Dir → Word
  | .enc => 0
  | .dec => sumDecInit

/-- A block command accepted: cdir, W ← BLK, SUM, RND ← 0, st ← BLK_RUN (R221, R222). -/
def State.beginBlock (s : State) (d : Dir) : State :=
  { s with cdir := d, w := s.blk, sum := sumInit d, rnd := 0, st := .blkRun }

/-- START accepted (R224). -/
def State.openSession (s : State) : State :=
  { s with
    cmode := s.ctrl.mode, cdir := s.ctrl.dir, chain := s.iv, len := 0, nblk := 0,
    pack := zeroBytes, pcnt := 0, fin := false, st := .sessWait }

/-- FINISH accepted: fin ← 1 (R225). -/
def State.endInput (s : State) : State := { s with fin := true }

/-- ABORT (R226). -/
def State.abortWork (s : State) : State :=
  { s with
    st := .idle, fin := false, pack := zeroBytes, pcnt := 0, obuf := zeroBytes, ocnt := 0,
    w := ⟨0, 0⟩, sum := 0, rnd := 0, inBlk := ⟨0, 0⟩ }

/-- One round in a direction (46_sequencer.md R245). -/
def roundIn (d : Dir) (b : Block) (sum : Word) (k : Key) : Block × Word :=
  match d with
  | .enc => encRound b sum k
  | .dec => decRound b sum k

/-- `round_step()`: one round of W and SUM in the direction cdir, and RND ← RND + 1 (R245). -/
def State.roundStep (s : State) : State :=
  { s with
    w := (roundIn s.cdir s.w s.sum s.key).1, sum := (roundIn s.cdir s.w s.sum s.key).2, rnd := s.rnd + 1 }

/-- BLK_DONE: BLK ← W; st ← IDLE; DONE ← 1 (R242). -/
def State.blockDone (s : State) : State := { s with blk := s.w, st := .idle, done := true }

/-- SESS_TAKE: the padded take, mode_in, and the start of the rounds (R243). "this step does not need OCNT = 0": the packer is emptied with
OBUF unread too, which ends a `wait_in` that R312 (a) says hangs. DESIGN CHOICE (entry 18): R243 is followed. -/
def State.takeInput (s : State) : State :=
  { s with
    inBlk := takeBlock s.pack s.pcnt, w := modeIn s.cmode s.cdir (takeBlock s.pack s.pcnt) s.chain,
    sum := sumInit s.cdir, rnd := 0, pack := zeroBytes, pcnt := 0, st := .sessRun }

/-- SESS_EMIT: mode_out to OBUF, chain_next to CHAIN; mode_out reads CHAIN before it is replaced (R247). -/
def State.emitOutput (s : State) : State :=
  { s with
    chain := chainNext s.cmode s.cdir s.w s.inBlk s.chain, obuf := bytesOfBlock (modeOut s.cmode s.cdir s.w s.chain),
    ocnt := 8, nblk := s.nblk + 1, st := .sessWait }

/-- SESS_CLOSE: st ← IDLE; fin ← 0; DONE ← 1 (R248). -/
def State.closeSession (s : State) : State := { s with st := .idle, fin := false, done := true }

/-- Reset: every element takes its value of R48 in one step; the turns still to come stay (70_reset_and_hazards.md R300; entry 5). -/
def State.afterReset (s : State) : State := { State.reset with inputs := s.inputs }

end Sys2Proof.Machine
end

