-- ==== Sys2Proof/Machine/Commands.lean ====
section
/-! DEFINITION. The seven commands, each run within its CMD-write transaction (45_commands.md). -/

namespace Sys2Proof.Machine

/-- NOP: no state changes, no error, in every state (R223). -/
def execNop (s : State) : Host.Outcome State Fault Refusal := .next s

/-- A block command's checks, BUSY then KEY_MALFORMED, and its start (R221, R222). -/
def State.blockCommand (s : State) (d : Dir) : State :=
  if s.st ≠ .idle then s.raise .busy
  else if s.keyOk ≠ 0b1111#4 then s.raise .keyMalformed
  else s.beginBlock d

/-- ENC_BLOCK; CTRL.MODE and CTRL.DIR are ignored (R221). -/
def execEncBlock (s : State) : Host.Outcome State Fault Refusal := .next (s.blockCommand .enc)

/-- DEC_BLOCK; CTRL.MODE and CTRL.DIR are ignored (R222). -/
def execDecBlock (s : State) : Host.Outcome State Fault Refusal := .next (s.blockCommand .dec)

/-- START: BUSY, OUTPUT_PENDING, KEY_MALFORMED, and in CBC only IV_MALFORMED, in this order (R224). -/
def execStart (s : State) : Host.Outcome State Fault Refusal :=
  if s.st ≠ .idle then .next (s.raise .busy)
  else if s.ocnt ≠ 0#4 then .next (s.raise .outputPending)
  else if s.keyOk ≠ 0b1111#4 then .next (s.raise .keyMalformed)
  else if s.ctrl.mode = .cbc ∧ s.ivOk ≠ 0b11#2 then .next (s.raise .ivMalformed)
  else .next s.openSession

/-- FINISH: NO_SESSION without a session; a second FINISH changes nothing (R225). -/
def execFinish (s : State) : Host.Outcome State Fault Refusal :=
  if s.session = false then .next (s.raise .noSession) else .next s.endInput

/-- ABORT, accepted in every state (R226). -/
def execAbort (s : State) : Host.Outcome State Fault Refusal := .next s.abortWork

/-- CLRSTAT, accepted in every state (R227). -/
def execClrstat (s : State) : Host.Outcome State Fault Refusal := .next s.clearStatus

end Sys2Proof.Machine
end

