-- ==== Sys2Proof/Machine/Ports.lean ====
section
/-! DEFINITION. The two codec ports, DIN and DOUT (44_host_registers.md R196, R197). -/

namespace Sys2Proof.Machine

/-- WR_DIN, the byte push: the checks NO_SESSION, LEN_OVERFLOW, OVERRUN in this order, and a refused byte is dropped (R196). -/
def execWrDin (d : Word) (s : State) : Host.Outcome State Fault Refusal :=
  if s.session = false ∨ s.fin = true then .next (s.raise .noSession)
  else if s.len = 0xFFFFFFFF#32 then .next (s.raise .lenOverflow)
  else if s.pcnt = 8#4 then .next (s.raise .overrun)
  else .next (s.pushByte (byteOperand d))

/-- RD_DOUT, the byte pop: works with or without a session; an empty buffer raises UNDERRUN and returns 0 (R197). -/
def execRdDout (s : State) : Host.Outcome State Fault Refusal :=
  if s.ocnt = 0#4 then .next ((s.raise .underrun).answer 0)
  else .next (s.popByte.answer (zextByte s.nextOut))

end Sys2Proof.Machine
end

