-- ==== Sys2Proof/Machine/Reads.lean ====
section
/-! DEFINITION. The register reads without a side effect (44_host_registers.md section 2; 20_memory.md R68). -/

namespace Sys2Proof.Machine

/-- RD_ID: the constant, in every state (R181). -/
def execRdId (s : State) : Host.Outcome State Fault Refusal := .next (s.answer idValue)

/-- RD_CTRL: the stored CTRL, not the latches (R183). -/
def execRdCtrl (s : State) : Host.Outcome State Fault Refusal := .next (s.answer (wordOfCtrl s.ctrl))

/-- RD_CMD: reads as 0 (R182). -/
def execRdCmd (s : State) : Host.Outcome State Fault Refusal := .next (s.answer 0)

/-- RD_STATUS: composed from the state at the moment of the read; no side effect (R185). -/
def execRdStatus (s : State) : Host.Outcome State Fault Refusal := .next (s.answer s.statusWord)

/-- RD_KEY0: the key cannot be read back (R187). -/
def execRdKey0 (s : State) : Host.Outcome State Fault Refusal := .next (s.answer 0)

/-- RD_KEY1: reads as 0 (R188). -/
def execRdKey1 (s : State) : Host.Outcome State Fault Refusal := .next (s.answer 0)

/-- RD_KEY2: reads as 0 (R189). -/
def execRdKey2 (s : State) : Host.Outcome State Fault Refusal := .next (s.answer 0)

/-- RD_KEY3: reads as 0 (R190). -/
def execRdKey3 (s : State) : Host.Outcome State Fault Refusal := .next (s.answer 0)

/-- RD_IV_L: the IV, not the running chain value (R201). -/
def execRdIvL (s : State) : Host.Outcome State Fault Refusal := .next (s.answer s.iv.l)

/-- RD_IV_R: the IV (R202). -/
def execRdIvR (s : State) : Host.Outcome State Fault Refusal := .next (s.answer s.iv.r)

/-- RD_BLK_L: while BLK_RUN, the operand (R205). -/
def execRdBlkL (s : State) : Host.Outcome State Fault Refusal := .next (s.answer s.blk.l)

/-- RD_BLK_R: while BLK_RUN, the operand (R206). -/
def execRdBlkR (s : State) : Host.Outcome State Fault Refusal := .next (s.answer s.blk.r)

/-- RD_DIN: reads as 0; the packer is not read (R198). -/
def execRdDin (s : State) : Host.Outcome State Fault Refusal := .next (s.answer 0)

/-- RD_LEN: accepted bytes only (R207). -/
def execRdLen (s : State) : Host.Outcome State Fault Refusal := .next (s.answer s.len)

/-- RD_NBLK: emitted blocks (R208). -/
def execRdNblk (s : State) : Host.Outcome State Fault Refusal := .next (s.answer s.nblk)

/-- RD_CHAIN_L: the running chain value (R209). -/
def execRdChainL (s : State) : Host.Outcome State Fault Refusal := .next (s.answer s.chain.l)

/-- RD_CHAIN_R: the running chain value (R210). -/
def execRdChainR (s : State) : Host.Outcome State Fault Refusal := .next (s.answer s.chain.r)

end Sys2Proof.Machine
end

