-- ==== Sys2Proof/Machine/Writes.lean ====
section
/-! DEFINITION. The register writes (44_host_registers.md section 2). -/

namespace Sys2Proof.Machine

/-- WR_CTRL: no error, never locked; a session keeps its latched cmode and cdir (R184). -/
def execWrCtrl (d : Word) (s : State) : Host.Outcome State Fault Refusal := .next (s.putCtrl d)

/-- WR_KEY0, under the write lock R191 (R192). -/
def execWrKey0 (d : Word) (s : State) : Host.Outcome State Fault Refusal := .next (s.lockedWrite (s.putKey0 d))

/-- WR_KEY1, under the write lock R191 (R193). -/
def execWrKey1 (d : Word) (s : State) : Host.Outcome State Fault Refusal := .next (s.lockedWrite (s.putKey1 d))

/-- WR_KEY2, under the write lock R191 (R194). -/
def execWrKey2 (d : Word) (s : State) : Host.Outcome State Fault Refusal := .next (s.lockedWrite (s.putKey2 d))

/-- WR_KEY3, under the write lock R191 (R195). -/
def execWrKey3 (d : Word) (s : State) : Host.Outcome State Fault Refusal := .next (s.lockedWrite (s.putKey3 d))

/-- WR_IV_L, under the write lock R191 (R199). -/
def execWrIvL (d : Word) (s : State) : Host.Outcome State Fault Refusal := .next (s.lockedWrite (s.putIvL d))

/-- WR_IV_R, under the write lock R191 (R200). -/
def execWrIvR (d : Word) (s : State) : Host.Outcome State Fault Refusal := .next (s.lockedWrite (s.putIvR d))

/-- WR_BLK_L, under the write lock R191 (R203). -/
def execWrBlkL (d : Word) (s : State) : Host.Outcome State Fault Refusal := .next (s.lockedWrite (s.putBlkL d))

/-- WR_BLK_R, under the write lock R191 (R204). -/
def execWrBlkR (d : Word) (s : State) : Host.Outcome State Fault Refusal := .next (s.lockedWrite (s.putBlkR d))

end Sys2Proof.Machine
end

