-- ==== Sys2Proof/Machine/Dispatch.lean ====
section
/-! DEFINITION. One arm per row of the opcode table. -/

namespace Sys2Proof.Machine

def exec (i : Instr) (s : State) : Host.Outcome State Fault Refusal :=
  match i with
  | .rdId => Sys2Proof.Machine.execRdId s
  | .rdCtrl => Sys2Proof.Machine.execRdCtrl s
  | .rdCmd => Sys2Proof.Machine.execRdCmd s
  | .rdStatus => Sys2Proof.Machine.execRdStatus s
  | .rdKey0 => Sys2Proof.Machine.execRdKey0 s
  | .rdKey1 => Sys2Proof.Machine.execRdKey1 s
  | .rdKey2 => Sys2Proof.Machine.execRdKey2 s
  | .rdKey3 => Sys2Proof.Machine.execRdKey3 s
  | .rdIvL => Sys2Proof.Machine.execRdIvL s
  | .rdIvR => Sys2Proof.Machine.execRdIvR s
  | .rdBlkL => Sys2Proof.Machine.execRdBlkL s
  | .rdBlkR => Sys2Proof.Machine.execRdBlkR s
  | .rdDin => Sys2Proof.Machine.execRdDin s
  | .rdDout => Sys2Proof.Machine.execRdDout s
  | .rdLen => Sys2Proof.Machine.execRdLen s
  | .rdNblk => Sys2Proof.Machine.execRdNblk s
  | .rdChainL => Sys2Proof.Machine.execRdChainL s
  | .rdChainR => Sys2Proof.Machine.execRdChainR s
  | .wrCtrl d => Sys2Proof.Machine.execWrCtrl d s
  | .wrKey0 d => Sys2Proof.Machine.execWrKey0 d s
  | .wrKey1 d => Sys2Proof.Machine.execWrKey1 d s
  | .wrKey2 d => Sys2Proof.Machine.execWrKey2 d s
  | .wrKey3 d => Sys2Proof.Machine.execWrKey3 d s
  | .wrIvL d => Sys2Proof.Machine.execWrIvL d s
  | .wrIvR d => Sys2Proof.Machine.execWrIvR d s
  | .wrBlkL d => Sys2Proof.Machine.execWrBlkL d s
  | .wrBlkR d => Sys2Proof.Machine.execWrBlkR d s
  | .wrDin d => Sys2Proof.Machine.execWrDin d s
  | .nop => Sys2Proof.Machine.execNop s
  | .encBlock => Sys2Proof.Machine.execEncBlock s
  | .decBlock => Sys2Proof.Machine.execDecBlock s
  | .start => Sys2Proof.Machine.execStart s
  | .finish => Sys2Proof.Machine.execFinish s
  | .abort => Sys2Proof.Machine.execAbort s
  | .clrstat => Sys2Proof.Machine.execClrstat s

end Sys2Proof.Machine
end

