-- ==== Sys2Proof/Machine/Bus.lean ====
section
/-! DEFINITION. The HOST's turn: one transaction, decoded and performed whole (30_encoding.md R82; 20_memory.md R67). -/

namespace Sys2Proof.Machine

/-- A transaction: the row it selects is executed; a word that selects none records its error (R82, R180, R220). It never waits (R211). -/
def hostTransaction (t : Transaction) (s : State) : Host.Outcome State Fault Refusal :=
  match decode t with
  | .ok i      => exec i s
  | .error why => .next (s.reject why t.isWrite)

/-- The turn that issues the low `nbits` bits of `w` as a transaction; a value over 41 bits is outside the format (R212; entry 11). -/
def fetchTurn (nbits w : Nat) : Turn :=
  if w % 2 ^ nbits < 2 ^ 41 then .host (BitVec.ofNat 41 (w % 2 ^ nbits)) else .foreign

/-- Where a register of the window stands in the host's address space, as the platform fixes it (20_memory.md R69; entry 9). -/
def platformAddress (r : Reg) : Nat := Config.teaBase + r.offset.toNat

/-- What the platform's interrupt controller sees: the number and trigger type it gave the line, and the line's level (R280; entry 9). -/
def State.irqRouting (s : State) : Nat × Nat × Bool := (Config.teaIrqNumber, Config.teaIrqTrigger, s.irq)

end Sys2Proof.Machine
end

