-- ==== Sys2Proof/Machine/Sequencer.lean ====
section
/-! DEFINITION. The CORE agent: the core step table and the steps (46_sequencer.md R240 to R250). -/

namespace Sys2Proof.Machine

/-- The six core steps (R240). -/
inductive CoreStep where
  | blkRound | blkDone | sessTake | sessRound | sessEmit | sessClose
  deriving DecidableEq, Repr

/-- The core step table's rows, in its order (R240). -/
def CoreStep.rows : List CoreStep := [.blkRound, .blkDone, .sessTake, .sessRound, .sessEmit, .sessClose]

/-- "enabled when" (R240). -/
def CoreStep.enabled (c : CoreStep) (s : State) : Bool :=
  match c with
  | .blkRound  => s.st == .blkRun && decide (s.rnd < 32#6)
  | .blkDone   => s.st == .blkRun && s.rnd == 32#6
  | .sessTake  => s.st == .sessWait && (s.pcnt == 8#4 || (s.fin && decide (1#4 ≤ s.pcnt) && decide (s.pcnt ≤ 7#4)))
  | .sessRound => s.st == .sessRun && decide (s.rnd < 32#6)
  | .sessEmit  => s.st == .sessRun && s.rnd == 32#6 && s.ocnt == 0#4
  | .sessClose => s.st == .sessWait && s.fin && s.pcnt == 0#4

/-- What each step does (R241 to R248). -/
def CoreStep.perform (c : CoreStep) (s : State) : State :=
  match c with
  | .blkRound  => s.roundStep
  | .blkDone   => s.blockDone
  | .sessTake  => s.takeInput
  | .sessRound => s.roundStep
  | .sessEmit  => s.emitOutput
  | .sessClose => s.closeSession

/-- The enabled core step, if there is one; at most one is enabled in any state (R240, R250). -/
def State.coreStep? (s : State) : Option CoreStep := CoreStep.rows.find? fun c => c.enabled s

/-- A turn of the CORE: the enabled step, and nothing where none is enabled (R240, R246, R249, R288; entry 3). -/
def State.coreTurn (s : State) : State :=
  match s.coreStep? with
  | none   => s
  | some c => c.perform s

end Sys2Proof.Machine
end

