-- ==== Sys2Proof/Machine/Step.lean ====
section
/-! DEFINITION. One step: the turn at the head of the schedule, or the core's when the schedule is empty (46_sequencer.md R256, R252). -/

namespace Sys2Proof.Machine

/-- Each step is exactly one of a host transaction, a core step and a reset (R256; entries 1 to 3, 6). -/
def step (s : State) : Host.Outcome State Fault Refusal :=
  match s.inputs with
  | []               => .next s.coreTurn
  | .core :: rest    => .next (s.withInputs rest).coreTurn
  | .host t :: rest  => hostTransaction t (s.withInputs rest)
  | .reset :: rest   => .next (s.withInputs rest).afterReset
  | .foreign :: _    => .refused .outsideFormat

/-- The machine that issues the transaction `w` next. TEA-CORE fetches nothing (20_memory.md R73): a program is the host's list of
transactions, and this puts one at the head of it (entry 11). -/
def State.withFetchWord (s : State) (nbits w : Nat) : State := s.withInputs (fetchTurn nbits w :: s.inputs)

end Sys2Proof.Machine
end

