-- ==== Sys2Proof/Machine/Asm.lean ====
section
/-! DEFINITION. Host program lines: transactions, shorthands and pseudo-instructions, as abstract syntax (30_encoding.md R89 to R91;
entry 13). -/

namespace Sys2Proof.Machine

/-- The command names of `cmd <name>` (R84, R90). -/
inductive Command where
  | nop | encBlock | decBlock | start | finish | abort | clrstat
  deriving DecidableEq, Repr

/-- The wait loops (R91). -/
inductive WaitLoop where
  | idle | done | inReady | outValid | closed
  deriving DecidableEq, Repr

/-- One line of a host program (R89 to R91). -/
inductive Line where
  | rd (r : Reg)
  | wr (r : Reg) (imm : Word)
  | cmd (c : Command)
  | push (x : Byte)
  | pop
  | keyload (k0 k1 k2 k3 : Word)
  | ivload (l r : Word)
  | blkload (l r : Word)
  | pushw (x : Word)
  | wait (c : WaitLoop)
  deriving DecidableEq, Repr

/-- The opcode of a command (R84). -/
def Command.opcode : Command → Word
  | .nop      => 0x0
  | .encBlock => 0x1
  | .decBlock => 0x2
  | .start    => 0x3
  | .finish   => 0x4
  | .abort    => 0x5
  | .clrstat  => 0x6

/-- The STATUS condition that ends a wait loop: `s` is the word its `rd STATUS` returned (R91). -/
def WaitLoop.ends (c : WaitLoop) (s : Word) : Bool :=
  match c with
  | .idle     => s.getLsbD 0 == false
  | .done     => s.getLsbD 5 == true
  | .inReady  => s.getLsbD 3 == true
  | .outValid => s.getLsbD 4 == true
  | .closed   => s.getLsbD 1 == false

/-- `push x`, that is `wr DIN, x` (R90). -/
def pushTransaction (x : Byte) : Transaction := assemble true .din (BitVec.setWidth 32 x)

/-- The transactions of a line. A wait line is a host loop; this is one turn of it, the `rd STATUS` (R89 to R91); Line.ops and
Hosted.move run the loop. -/
def Line.expand : Line → List Transaction
  | .rd r                => [assemble false r 0]
  | .wr r imm            => [assemble true r imm]
  | .cmd c               => [assemble true .cmd c.opcode]
  | .push x              => [pushTransaction x]
  | .pop                 => [assemble false .dout 0]
  | .keyload k0 k1 k2 k3 => [assemble true .key0 k0, assemble true .key1 k1, assemble true .key2 k2, assemble true .key3 k3]
  | .ivload l r          => [assemble true .ivL l, assemble true .ivR r]
  | .blkload l r         => [assemble true .blkL l, assemble true .blkR r]
  | .pushw x             =>
    [pushTransaction (x.extractLsb' 24 8), pushTransaction (x.extractLsb' 16 8),
     pushTransaction (x.extractLsb' 8 8), pushTransaction (x.extractLsb' 0 8)]
  | .wait _              => [assemble false .status 0]

/-- The transactions of a program without a loop: its lines in order (R89). Hosted.start runs a program with loops. -/
def expandAll (p : List Line) : List Transaction := p.flatMap Line.expand

end Sys2Proof.Machine
end

