-- ==== Sys2Proof/Machine/Hosted.lean ====
section
/-! DEFINITION. The block together with the program of its HOST: the host's wait loops (30_encoding.md R91), runs of any length, the core's
fairness (46_sequencer.md R252), when a run is finished (R255), and the waits that never end (70_reset_and_hazards.md R312). Entry 19. -/

namespace Sys2Proof.Machine

/-- What a host program does next: a transaction, or one round of a wait loop (R89, R91). -/
inductive HostOp where
  | issue (t : Transaction)
  | poll (c : WaitLoop)
  deriving DecidableEq, Repr

/-- The transaction of an operation; a wait loop reads STATUS (R91). -/
def HostOp.transaction : HostOp → Transaction
  | .issue t => t
  | .poll _  => assemble false .status 0

/-- The program goes on after the operation returned this RDATA: always after a plain transaction, and after a poll only where the STATUS
word ends the loop (R91). -/
def HostOp.ends (op : HostOp) (rdata : Option Word) : Bool :=
  match op with
  | .issue _ => true
  | .poll c  => rdata.any c.ends

/-- The operations of a line (R89 to R91). -/
def Line.ops (l : Line) : List HostOp :=
  match l with
  | .wait c              => [.poll c]
  | .rd r                => (Line.rd r).expand.map .issue
  | .wr r imm            => (Line.wr r imm).expand.map .issue
  | .cmd c               => (Line.cmd c).expand.map .issue
  | .push x              => (Line.push x).expand.map .issue
  | .pop                 => Line.pop.expand.map .issue
  | .keyload k0 k1 k2 k3 => (Line.keyload k0 k1 k2 k3).expand.map .issue
  | .ivload l r          => (Line.ivload l r).expand.map .issue
  | .blkload l r         => (Line.blkload l r).expand.map .issue
  | .pushw x             => (Line.pushw x).expand.map .issue

/-- The block, and what its host program has still to do. The program is the host's, no element of R48. -/
structure Hosted where
  dev     : State
  program : List HostOp
  deriving DecidableEq, Repr

/-- The block at `s` with the program of these lines before it (R89). -/
def Hosted.start (s : State) (p : List Line) : Hosted := ⟨s, p.flatMap Line.ops⟩

/-- Who moves (00_scope.md R8). A reset comes from outside the program and is no move of a hosted run (entry 19). -/
inductive Agent where
  | host | core
  deriving DecidableEq, Repr

/-- The outcome of a step of the block as that of the block and its program, which `f` gives from the block's next state. -/
def Hosted.lift (f : State → List HostOp) (o : Host.Outcome State Fault Refusal) : Host.Outcome Hosted Fault Refusal :=
  match o with
  | .next s    => .next ⟨s, f s⟩
  | .fault r   => .fault r
  | .refused r => .refused r

/-- One move: the core's turn, or the program's next operation (R256). A program that has ended moves nothing (entry 19). -/
def Hosted.move (h : Hosted) (a : Agent) : Host.Outcome Hosted Fault Refusal :=
  match a with
  | .core => Hosted.lift (fun _ => h.program) (step (h.dev.withInputs [.core]))
  | .host =>
    match h.program with
    | []         => .next h
    | op :: rest =>
      Hosted.lift (fun s => if op.ends s.rdata then rest else op :: rest) (step (h.dev.withInputs [.host op.transaction]))

/-- An infinite run: the states `r` in order, `a n` being who moves from `r n`. Any interleaving is one (R8, R256). -/
def Hosted.isRun (r : Nat → Hosted) (a : Nat → Agent) : Prop := ∀ n, (r n).move (a n) = .next (r (n + 1))

/-- Weak fairness: "a core step that stays enabled is eventually taken" (R252). Nothing is assumed of the host. -/
def Hosted.fair (r : Nat → Hosted) (a : Nat → Agent) : Prop :=
  ∀ (n : Nat) (c : CoreStep), (∀ m, n ≤ m → c.enabled (r m).dev = true) → ∃ m, n ≤ m ∧ a m = .core

/-- A run is finished here: the program has issued its last transaction, and no core step is enabled (R255). It says nothing of drained
output, of an open session or of errors. A program in a wait loop is not at its end. -/
def Hosted.finished (h : Hosted) : Bool := h.program.isEmpty && h.dev.coreStep?.isNone

/-- The program hangs: no run from here, whatever the interleaving, is ever finished (R255, R312). -/
def Hosted.hangs (h : Hosted) : Prop :=
  ∀ (r : Nat → Hosted) (a : Nat → Agent), r 0 = h → Hosted.isRun r a → ∀ n, (r n).finished = false

/-- OBUF holds unread bytes and a later block of the session is in the datapath or the packer, so without a DOUT read the session cannot
close (R246, R312 (b)). -/
def State.outputBlocked (s : State) : Bool := s.session && s.outValid && (s.st == .sessRun || decide (0#4 < s.pcnt))

/-- "Block 1 is in OBUF and block 2 is stalled in W" (R312 (a)), or on its way there: the datapath holds a block that cannot be emitted while
OBUF holds unread bytes (R246). -/
def State.emitBlocked (s : State) : Bool := s.st == .sessRun && s.outValid

/-- The operation neither reads DOUT nor aborts: it lifts no output stall (R246). -/
abbrev HostOp.leavesOutput (op : HostOp) : Prop := decode op.transaction ≠ .ok .rdDout ∧ decode op.transaction ≠ .ok .abort

/-- The pushes of a byte sequence, in order (R90). -/
def pushOps (xs : List Byte) : List HostOp := xs.map fun x => .issue (pushTransaction x)

/-- The waits that never end (R312; 93 I19), by the state in which the loop runs:
`wait_in` in IDLE (d), and with a full packer behind a block that cannot be emitted (a); `wait_done` with DONE = 0 in IDLE (d), and in a
session whose output is blocked (b); `wait_closed` in such a session (b); `wait_out` in IDLE with OBUF empty (c, d); and `wait_idle` while
the datapath holds a block that cannot be emitted (R246).
DESIGN CHOICE (entry 18): of R312 (a), "the packer can never be taken again" and the endless `wait_in` hold as soon as the packer is full
again. That `wait_in` hangs already with the packer empty, right after the second block's take, contradicts R243 ("PCNT becomes 0, so IN_READY
becomes 1 if fin = 0") and R47, and those are followed: the loop ends there. -/
def WaitLoop.hopeless (c : WaitLoop) (s : State) : Bool :=
  match c with
  | .idle     => s.emitBlocked
  | .done     => !s.done && (s.st == .idle || s.outputBlocked)
  | .inReady  => s.st == .idle || (s.emitBlocked && s.pcnt == 8#4)
  | .outValid => s.st == .idle && s.ocnt == 0#4
  | .closed   => s.outputBlocked

end Sys2Proof.Machine
end

