-- ==== Sys2Proof/Safety.lean ====
section
/-! DEFINITION. The terms the statements use: the invariants of 10_state.md R46, reachable states, a block at rest, the
trace of a session (R262), and which state an observer can tell apart (93 I17, I18). -/

namespace Sys2Proof.Machine

/-- The block is at rest: its schedule is spent and no core step is enabled. Whether a run is finished depends on the host's program too
(R255: Hosted.finished). -/
def State.atRest (s : State) : Bool := s.inputs.isEmpty && s.coreStep?.isNone

/-- The next step is the core's: a core turn stands at the head, or the schedule is empty (entry 2). `rest` is what is left after it. -/
abbrev State.coreNext (s : State) (rest : List Turn) : Prop := s.inputs = .core :: rest ∨ (s.inputs = [] ∧ rest = [])

/-- R46 (1): 0 ≤ PCNT ≤ 8, 0 ≤ OCNT ≤ 8 and 0 ≤ RND ≤ 32. -/
abbrev State.countersInRange (s : State) : Prop := s.pcnt.toNat ≤ 8 ∧ s.ocnt.toNat ≤ 8 ∧ s.rnd.toNat ≤ 32

/-- R46 (2): PACK[i] = 0 for i ≥ PCNT. -/
abbrev State.packZeroBeyond (s : State) : Prop := ∀ i : Fin 8, s.pcnt.toNat ≤ i.val → s.pack[i] = 0

/-- R46 (5): the SUM of a block operation after r rounds is r·DELTA when encrypting and (32 - r)·DELTA when decrypting, mod 2^32. -/
abbrev State.sumOnSchedule (s : State) : Prop :=
  s.st = .blkRun ∨ s.st = .sessRun →
    s.sum.toNat = (if s.cdir = .enc then s.rnd.toNat else 32 - s.rnd.toNat) * 0x9E3779B9 % 2 ^ 32

/-- The invariants of R46, (1) to (7). -/
abbrev State.statedInvariants (s : State) : Prop :=
  s.countersInRange ∧ s.packZeroBeyond ∧
  (s.st = .idle → s.fin = false ∧ s.pcnt = 0#4) ∧
  (s.st = .blkRun → s.fin = false ∧ s.pcnt = 0#4) ∧
  s.sumOnSchedule ∧
  s.nblk.toNat ≤ (s.len.toNat + 7) / 8 ∧
  (s.err = false → s.errCode = .none)

/-- The blocks an open session has taken from the packer: those emitted, and the one in the datapath. -/
def State.takenBlocks (s : State) : Nat := s.nblk.toNat + if s.st = .sessRun then 1 else 0

/-- In a session, LEN counts the taken blocks and the packed bytes; only a padded last block makes it fall short of whole blocks. -/
abbrev State.lenAccounted (s : State) : Prop :=
  s.session = true →
    s.len.toNat ≤ 8 * s.takenBlocks + s.pcnt.toNat ∧ 8 * s.takenBlocks + s.pcnt.toNat < s.len.toNat + 8 ∧
    (s.fin = false ∨ 0#4 < s.pcnt → s.len.toNat = 8 * s.takenBlocks + s.pcnt.toNat)

/-- The inductive invariant: R46 with what carries it from step to step, and the loaded masks of an operation in progress (R275). -/
abbrev State.Inv (s : State) : Prop :=
  s.statedInvariants ∧ s.lenAccounted ∧
  (s.st ≠ .idle → s.keyOk = 0b1111#4) ∧
  (s.session = true → s.cmode = .cbc → s.ivOk = 0b11#2)

/-- The states that reset, the steps, and any choice of later turns by the host and the environment lead to (R8, R256). -/
inductive Reachable : State → Prop where
  | reset : Reachable State.reset
  | feed {s : State} (us : List Turn) : Reachable s → Reachable (s.withInputs us)
  | step {s t : State} : Reachable s → step s = .next t → Reachable t

/-- The turn is no ABORT, no reset and inside the format: what R261 and R262 assume of a block command or session. -/
def Turn.keepsWork (u : Turn) : Bool :=
  match u with
  | .host t  => t != encode .abort
  | .core    => true
  | .reset   => false
  | .foreign => false

/-- The number of core turns in a schedule. -/
def coreTurns (us : List Turn) : Nat := us.countP fun u => u == .core

/-- A DIN write is accepted: none of R196's three refusals applies. -/
abbrev State.acceptsPush (s : State) : Prop :=
  s.session = true ∧ s.fin = false ∧ s.len ≠ 0xFFFFFFFF#32 ∧ s.pcnt ≠ 8#4

/-- The byte that a turn brings into the packer from the state `s`: that of an accepted DIN write (R196). -/
def acceptedByte (u : Turn) (s : State) : List Byte :=
  match u with
  | .host w => if w.isWrite = true ∧ w.addr = 0x30#8 ∧ s.acceptsPush then [byteOperand w.wdata] else []
  | _       => []

/-- The bytes that a turn from `s` to `t` emits: OBUF after a SESS_EMIT step (R247). -/
def emittedBytes (u : Turn) (s t : State) : List Byte :=
  match u with
  | .core => if CoreStep.sessEmit.enabled s then t.obuf.toList else []
  | _     => []

/-- The byte that a turn from `s` to `t` gives the host through DOUT: RDATA[7:0] of an accepted DOUT read (R197). -/
def poppedByte (u : Turn) (s t : State) : List Byte :=
  match u with
  | .host w => if w.isWrite = false ∧ w.addr = 0x34#8 ∧ s.ocnt ≠ 0#4 then t.rdata.toList.map byteOperand else []
  | _       => []

/-- The bytes of OBUF still to be read, in order (R45). -/
def State.unread (s : State) : List Byte := s.obuf.toList.drop (8 - s.ocnt.toNat)

/-- START is accepted in `s` (R224's checks). -/
abbrev State.acceptsStart (s : State) : Prop :=
  s.st = .idle ∧ s.ocnt = 0#4 ∧ s.keyOk = 0b1111#4 ∧ (s.ctrl.mode = .cbc → s.ivOk = 0b11#2)

/-- The trace of one session from the state `s0` that accepts its START: after some turns, none an ABORT or a reset, the state `s`, the
bytes accepted through DIN, emitted by SESS_EMIT and read through DOUT so far (R262). A turn is added only while the session is open. -/
inductive SessionTrace (s0 : State) : State → List Byte → List Byte → List Byte → Prop where
  | opened {s : State} : s0.acceptsStart → exec .start s0 = .next s → SessionTrace s0 s [] [] []
  | turn {s t : State} {din out dout : List Byte} (u : Turn) :
      SessionTrace s0 s din out dout → s.session = true → u.keepsWork = true → step (s.withInputs [u]) = .next t →
      SessionTrace s0 t (din ++ acceptedByte u s) (out ++ emittedBytes u s t) (dout ++ poppedByte u s t)

/-- Everything but what cannot matter: hidden registers count only while an operation that reads them is in progress, and OBUF only while it
holds unread bytes (93 I17, I18; R45, R128). Two such states look the same to the host now. -/
abbrev State.sameLive (s t : State) : Prop :=
  s.inputs = t.inputs ∧ s.rdata = t.rdata ∧ s.ctrl = t.ctrl ∧ s.key = t.key ∧ s.keyOk = t.keyOk ∧ s.iv = t.iv ∧ s.ivOk = t.ivOk ∧
  s.blk = t.blk ∧ s.chain = t.chain ∧ s.len = t.len ∧ s.nblk = t.nblk ∧ s.done = t.done ∧ s.err = t.err ∧ s.errCode = t.errCode ∧
  s.st = t.st ∧ s.fin = t.fin ∧ s.pack = t.pack ∧ s.pcnt = t.pcnt ∧ s.ocnt = t.ocnt ∧
  (s.st ≠ .idle → s.cdir = t.cdir) ∧
  (s.session = true → s.cmode = t.cmode) ∧
  (s.busy = true → s.w = t.w ∧ s.sum = t.sum ∧ s.rnd = t.rnd) ∧
  (s.st = .sessRun → s.inBlk = t.inBlk) ∧
  (s.ocnt ≠ 0#4 → s.obuf = t.obuf)

end Sys2Proof.Machine
end

