-- ==== Sys2Proof/Certificates/Slice0/Obligations.lean ====
section
/-! DEFINITION. The statements for the provers. Each docstring names the rules of spec/ it formalises. `rdata` and `inputs` are the model's own
fields (entries 1 and 4): a clause about them says how the model shows a read's RDATA (30_encoding.md R80) and the order of turns. -/

open Sys2Proof Sys2Proof.Machine

/-! ## Encoding -/

/-- Decoding the word of an instruction gives it back, with every operand at every value (30_encoding.md R80, R81, R83, R85). -/
def Obligations.DecodeOfEncodeIsTheInstruction : Prop :=
  ∀ i : Instr, decode (encode i) = .ok i

/-- Each legal word has one meaning: a write's word is the encoding of what it decodes to, and a read's is up to its WDATA, which is
ignored (R83, R86). -/
def Obligations.EncodeOfDecodeIsTheWord : Prop :=
  ∀ (t : Transaction) (i : Instr), decode t = .ok i →
    encode i = if t.getLsbD 40 then t else t &&& 0x1FF00000000#41

/-- R92: a transaction selects a row of the opcode table when (T & mask) = match, and that row is the one it decodes to; 35 rows, 18 reads,
10 register writes and 7 commands. -/
def Obligations.TableRowSelectsTheDecodedInstruction : Prop :=
  (readRows.length = 18 ∧ writeRows.length = 10 ∧ commandRows.length = 7 ∧ opcodeTable.length = 35) ∧
  ∀ (t : Transaction) (row : OpcodeRow), row ∈ opcodeTable →
    (t &&& row.mask = row.pattern ↔ ∃ i, decode t = .ok i ∧ i.mnemonic = row.mnemonic)

/-- R82: the decoder is total. It answers BAD_ACCESS exactly where step 1, 2 or 3 applies, ILLEGAL_CMD exactly where none of them does and the
word is a write to CMD with RSV ≠ 0 or OP in 0x7..0xF, and otherwise exactly one row of the opcode table. -/
def Obligations.DecoderIsTotalByRowOrName : Prop :=
  ∀ t : Transaction,
    let write := t.toNat / 2 ^ 40 = 1
    let offset := t.toNat / 2 ^ 32 % 256
    let data := t.toNat % 2 ^ 32
    let bad := offset % 4 ≠ 0 ∨ offset > 0x44 ∨ (write ∧ offset ∈ [0x00, 0x0C, 0x34, 0x38, 0x3C, 0x40, 0x44])
    let illegal := ¬ bad ∧ write ∧ offset = 0x08 ∧ (data / 16 ≠ 0 ∨ 7 ≤ data % 16)
    (decode t = .error .badAccess ↔ bad) ∧ (decode t = .error .illegalCmd ↔ illegal) ∧
    (¬ bad → ¬ illegal →
      ∃ i row, decode t = .ok i ∧ row ∈ opcodeTable ∧ i.mnemonic = row.mnemonic ∧
        ∀ row' ∈ opcodeTable, row'.selects t = true ↔ row' = row)

/-- R180, R228: a transaction that is misaligned, unmapped or a write to a read-only register records BAD_ACCESS, and a CMD write with a
reserved opcode or RSV ≠ 0 records ILLEGAL_CMD (R220). Nothing else changes; a read among them returns 0. The first code is kept (R272). -/
def Obligations.IllegalTransactionOnlyRecordsItsError : Prop :=
  ∀ (s : State) (t : Transaction) (rest : List Turn), s.inputs = .host t :: rest → t.wf = false →
    step s = .next { s with
      inputs := rest, err := true,
      errCode := if s.err then s.errCode
        else if t.aligned && t.mapped && t.writable then .illegalCmd else .badAccess,
      rdata := if t.writes then s.rdata else some 0 }

/-- A host turn runs the instruction its word decodes to (R82, R256), after the turn is taken off the schedule; and the word of an
instruction, put at the head of the schedule, is what the next step runs (entry 11). -/
def Obligations.StepRunsTheDecodedInstruction : Prop :=
  (∀ (s : State) (t : Transaction) (rest : List Turn) (i : Instr), s.inputs = .host t :: rest → decode t = .ok i →
    step s = exec i { s with inputs := rest }) ∧
  (∀ (s : State) (i : Instr), step (s.withFetchWord 48 (encode i).toNat) = exec i s)

/-- R84, R85: the row of every defined transaction, by its fields W ++ ADDR ++ WDATA written out: the 18 reads with any WDATA, the 10 register
writes with any operand, and the 7 command words. -/
def Obligations.RowsByTheirFields : Prop :=
  (∀ d : Word,
    let rd (a : BitVec 8) : Except Reject Instr := decode (0b0#1 ++ a ++ d)
    rd 0x00 = .ok .rdId ∧ rd 0x04 = .ok .rdCtrl ∧ rd 0x08 = .ok .rdCmd ∧ rd 0x0C = .ok .rdStatus ∧ rd 0x10 = .ok .rdKey0 ∧
    rd 0x14 = .ok .rdKey1 ∧ rd 0x18 = .ok .rdKey2 ∧ rd 0x1C = .ok .rdKey3 ∧ rd 0x20 = .ok .rdIvL ∧ rd 0x24 = .ok .rdIvR ∧
    rd 0x28 = .ok .rdBlkL ∧ rd 0x2C = .ok .rdBlkR ∧ rd 0x30 = .ok .rdDin ∧ rd 0x34 = .ok .rdDout ∧ rd 0x38 = .ok .rdLen ∧
    rd 0x3C = .ok .rdNblk ∧ rd 0x40 = .ok .rdChainL ∧ rd 0x44 = .ok .rdChainR) ∧
  (∀ d : Word,
    let wr (a : BitVec 8) : Except Reject Instr := decode (0b1#1 ++ a ++ d)
    wr 0x04 = .ok (.wrCtrl d) ∧ wr 0x10 = .ok (.wrKey0 d) ∧ wr 0x14 = .ok (.wrKey1 d) ∧ wr 0x18 = .ok (.wrKey2 d) ∧
    wr 0x1C = .ok (.wrKey3 d) ∧ wr 0x20 = .ok (.wrIvL d) ∧ wr 0x24 = .ok (.wrIvR d) ∧ wr 0x28 = .ok (.wrBlkL d) ∧
    wr 0x2C = .ok (.wrBlkR d) ∧ wr 0x30 = .ok (.wrDin d)) ∧
  (decode 0x10800000000#41 = .ok .nop ∧ decode 0x10800000001#41 = .ok .encBlock ∧ decode 0x10800000002#41 = .ok .decBlock ∧
    decode 0x10800000003#41 = .ok .start ∧ decode 0x10800000004#41 = .ok .finish ∧ decode 0x10800000005#41 = .ok .abort ∧
    decode 0x10800000006#41 = .ok .clrstat)

/-! ## Reset -/

/-- R48, R301: what reset leaves, at the values the spec gives. -/
def Obligations.ResetLeavesTheStatedValues : Prop :=
  let s := State.reset
  s.ctrl = ⟨.ecb, .enc, false⟩ ∧ s.key = ⟨0, 0, 0, 0⟩ ∧ s.keyOk = 0#4 ∧ s.iv = ⟨0, 0⟩ ∧ s.ivOk = 0#2 ∧ s.blk = ⟨0, 0⟩ ∧ s.chain = ⟨0, 0⟩ ∧
  s.len = 0 ∧ s.nblk = 0 ∧ s.done = false ∧ s.err = false ∧ s.errCode = .none ∧ s.st = .idle ∧ s.fin = false ∧
  s.cdir = .enc ∧ s.cmode = .ecb ∧ s.w = ⟨0, 0⟩ ∧ s.sum = 0 ∧ s.rnd = 0 ∧ s.inBlk = ⟨0, 0⟩ ∧
  (∀ i : Fin 8, s.pack[i] = 0) ∧ s.pcnt = 0 ∧ (∀ i : Fin 8, s.obuf[i] = 0) ∧ s.ocnt = 0 ∧
  s.session = false ∧ s.irq = false ∧ s.statusWord = 0x00000000 ∧
  exec .rdId s = .next { s with rdata := some 0x54454131 }

/-- R300: reset, between any two steps, sets every element of R48 to its reset value in one step, whatever was in progress. `rdata` is the
model's own field and is set aside here; so are the later turns (entry 5). -/
def Obligations.ResetEventSetsEveryElement : Prop :=
  ∀ (s : State) (rest : List Turn), s.inputs = .reset :: rest →
    ∃ t, step s = .next t ∧ { t with inputs := [], rdata := none } = State.reset

/-! ## Invariants -/

/-- The inductive invariant holds after reset, whatever the schedule. -/
def Obligations.InvHoldsAfterReset : Prop :=
  ∀ us : List Turn, (State.reset.withInputs us).Inv

/-- Every step keeps the inductive invariant: R46 (1) to (7), the accounting of LEN, and the loaded masks of an operation in progress. -/
def Obligations.StepKeepsInv : Prop :=
  ∀ s t : State, s.Inv → step s = .next t → t.Inv

/-- R46: every reachable state satisfies the seven invariants. -/
def Obligations.ReachableStatesSatisfyTheStatedInvariants : Prop :=
  ∀ s : State, Reachable s → s.statedInvariants

/-! ## The core -/

/-- R250: the enabling conditions of R240 are pairwise disjoint, so the core is deterministic: the step taken is the one that is enabled.
R240: no core step is enabled in IDLE, in an unfinished SESS_WAIT with PCNT < 8, or in SESS_RUN with RND = 32 and OCNT > 0. -/
def Obligations.CoreStepsAreExclusive : Prop :=
  (∀ (s : State) (c d : CoreStep), c.enabled s = true → d.enabled s = true → c = d) ∧
  (∀ (s : State) (c : CoreStep), s.coreStep? = some c ↔ c.enabled s = true) ∧
  (∀ s : State, (s.st = .idle ∨ (s.st = .sessWait ∧ s.fin = false ∧ s.pcnt < 8#4) ∨
      (s.st = .sessRun ∧ s.rnd = 32#6 ∧ 0#4 < s.ocnt)) → s.coreStep? = none)

/-- R241, R244, R245: with RND < 32, a core turn in BLK_RUN or SESS_RUN performs one round in the direction cdir, adds 1 to RND and changes
nothing else. -/
def Obligations.CoreRoundPerformsOneRound : Prop :=
  ∀ (s : State) (rest : List Turn), s.coreNext rest → s.st = .blkRun ∨ s.st = .sessRun → s.rnd < 32#6 →
    (s.cdir = .enc → step s = .next { s with
      inputs := rest, w := (encRound s.w s.sum s.key).1, sum := (encRound s.w s.sum s.key).2, rnd := s.rnd + 1 }) ∧
    (s.cdir = .dec → step s = .next { s with
      inputs := rest, w := (decRound s.w s.sum s.key).1, sum := (decRound s.w s.sum s.key).2, rnd := s.rnd + 1 })

/-- R242, R248: BLK_DONE writes W to BLK, SESS_CLOSE clears fin; both go to IDLE and set DONE, and change nothing else. -/
def Obligations.CoreDoneAndCloseGoToIdle : Prop :=
  (∀ (s : State) (rest : List Turn), s.coreNext rest → s.st = .blkRun → s.rnd = 32#6 →
    step s = .next { s with inputs := rest, blk := s.w, st := .idle, done := true }) ∧
  (∀ (s : State) (rest : List Turn), s.coreNext rest → s.st = .sessWait → s.fin = true → s.pcnt = 0#4 →
    step s = .next { s with inputs := rest, st := .idle, fin := false, done := true })

/-- R243, R171: SESS_TAKE takes the packer's bytes below PCNT, zero-padded, big-endian, as IN; W is mode_in of it; the rounds start. -/
def Obligations.CoreTakesThePaddedBlock : Prop :=
  ∀ (s : State) (rest : List Turn), s.coreNext rest → s.st = .sessWait →
    s.pcnt = 8#4 ∨ (s.fin = true ∧ 1#4 ≤ s.pcnt ∧ s.pcnt ≤ 7#4) →
    let x (i : Fin 8) : Byte := if i.val < s.pcnt.toNat then s.pack[i] else 0x00
    let b : Block := ⟨x 0 ++ x 1 ++ x 2 ++ x 3, x 4 ++ x 5 ++ x 6 ++ x 7⟩
    step s = .next { s with
      inputs := rest, inBlk := b,
      w := if s.cmode = .cbc ∧ s.cdir = .enc then ⟨b.l ^^^ s.chain.l, b.r ^^^ s.chain.r⟩ else b,
      sum := if s.cdir = .enc then 0 else 0xC6EF3720, rnd := 0,
      pack := #v[0, 0, 0, 0, 0, 0, 0, 0], pcnt := 0, st := .sessRun }

/-- R247, R149, R150, R172: SESS_EMIT writes mode_out of W to OBUF, chain_next to CHAIN, sets OCNT to 8 and adds 1 to NBLK mod 2^32. -/
def Obligations.CoreEmitsTheOutputBlock : Prop :=
  ∀ (s : State) (rest : List Turn), s.coreNext rest → s.st = .sessRun → s.rnd = 32#6 → s.ocnt = 0#4 →
    let o : Block := if s.cmode = .cbc ∧ s.cdir = .dec then ⟨s.w.l ^^^ s.chain.l, s.w.r ^^^ s.chain.r⟩ else s.w
    step s = .next { s with
      inputs := rest,
      chain := if s.cmode = .ecb then s.chain else if s.cdir = .enc then s.w else s.inBlk,
      obuf := #v[o.l.extractLsb' 24 8, o.l.extractLsb' 16 8, o.l.extractLsb' 8 8, o.l.extractLsb' 0 8,
                 o.r.extractLsb' 24 8, o.r.extractLsb' 16 8, o.r.extractLsb' 8 8, o.r.extractLsb' 0 8],
      ocnt := 8, nblk := s.nblk + 1, st := .sessWait }

/-- R253, R249, R246: in each hold a core turn changes nothing (it only leaves the schedule, entry 3). -/
def Obligations.CoreHoldsWhileNothingIsEnabled : Prop :=
  ∀ (s : State) (rest : List Turn), s.coreNext rest →
    (s.st = .idle ∨ (s.st = .sessWait ∧ s.fin = false ∧ s.pcnt < 8#4) ∨ (s.st = .sessRun ∧ s.rnd = 32#6 ∧ 0#4 < s.ocnt)) →
    step s = .next { s with inputs := rest }

/-- R251, R279: the core raises no error. No core step reads CTRL, IV_L, IV_R or KEY_OK (or IV_OK), and only a round reads KEY0 to KEY3:
with other values there, a core turn does the same to everything else. -/
def Obligations.CoreRaisesNothingAndReadsNoConfiguration : Prop :=
  ∀ (s t : State) (rest : List Turn), s.coreNext rest → step s = .next t →
    (t.err = s.err ∧ t.errCode = s.errCode) ∧
    (∀ (c : Ctrl) (v : Block) (ko : BitVec 4) (vo : BitVec 2),
      step { s with ctrl := c, iv := v, keyOk := ko, ivOk := vo } = .next { t with ctrl := c, iv := v, keyOk := ko, ivOk := vo }) ∧
    (∀ k : Key, ¬ ((s.st = .blkRun ∨ s.st = .sessRun) ∧ s.rnd < 32#6) →
      step { s with key := k } = .next { t with key := k })

/-! ## The datapath -/

/-- R101 to R105, R107: the datapath operations on numbers. -/
def Obligations.DatapathArithmeticOnNumbers : Prop :=
  (∀ a b : Word, (add32 a b).toNat = (a.toNat + b.toNat) % 2 ^ 32) ∧
  (∀ a b : Word, (sub32 a b).toNat = (a.toNat + 2 ^ 32 - b.toNat) % 2 ^ 32) ∧
  (∀ (a : Word) (n : Nat), (shl32 a n).toNat = a.toNat * 2 ^ n % 2 ^ 32) ∧
  (∀ (a : Word) (n : Nat), (shr32 a n).toNat = a.toNat / 2 ^ n) ∧
  (∀ (a b : Word) (i : Nat), (xor32 a b).getLsbD i = (a.getLsbD i != b.getLsbD i)) ∧
  (∀ a b : Block, xorB a b = ⟨xor32 a.l b.l, xor32 a.r b.r⟩)

/-- R120 to R122, R108: the mixing function and the two rounds on numbers, with the order of their steps. -/
def Obligations.RoundFunctionsOnNumbers : Prop :=
  (∀ x s ka kb : Word, (mixF x s ka kb).toNat =
    (x.toNat * 16 + ka.toNat) % 2 ^ 32 ^^^ (x.toNat + s.toNat) % 2 ^ 32 ^^^ (x.toNat / 32 + kb.toNat) % 2 ^ 32) ∧
  (∀ (b : Block) (sum : Word) (k : Key),
    let p := encRound b sum k
    p.2.toNat = (sum.toNat + 0x9E3779B9) % 2 ^ 32 ∧
    p.1.l.toNat = (b.l.toNat + (mixF b.r p.2 k.k0 k.k1).toNat) % 2 ^ 32 ∧
    p.1.r.toNat = (b.r.toNat + (mixF p.1.l p.2 k.k2 k.k3).toNat) % 2 ^ 32) ∧
  (∀ (b : Block) (sum : Word) (k : Key),
    let p := decRound b sum k
    p.1.r.toNat = (b.r.toNat + 2 ^ 32 - (mixF b.l sum k.k2 k.k3).toNat) % 2 ^ 32 ∧
    p.1.l.toNat = (b.l.toNat + 2 ^ 32 - (mixF p.1.r sum k.k0 k.k1).toNat) % 2 ^ 32 ∧
    p.2.toNat = (sum.toNat + 2 ^ 32 - 0x9E3779B9) % 2 ^ 32)

/-- R126, R109: encryption round i mixes with i·DELTA, decryption round j with (33 - j)·DELTA, mod 2^32, for rounds 1 to 32; SUM_DEC_INIT is
DELTA << 5 = 0xC6EF3720. -/
def Obligations.SumFollowsTheSchedule : Prop :=
  (∀ (k : Key) (b : Block) (i : Nat), 1 ≤ i → i ≤ 32 →
    (add32 (encRounds k (i - 1) b 0).2 delta).toNat = i * 0x9E3779B9 % 2 ^ 32) ∧
  (∀ (k : Key) (b : Block) (j : Nat), 1 ≤ j → j ≤ 32 →
    (decRounds k (j - 1) b sumDecInit).2.toNat = (33 - j) * 0x9E3779B9 % 2 ^ 32) ∧
  sumDecInit = shl32 delta 5 ∧ sumDecInit = 0xC6EF3720

/-- R125: decrypt_block inverts encrypt_block for all Blocks and Keys, and the converse; and so does each round. -/
def Obligations.DecryptInvertsEncrypt : Prop :=
  ∀ (b : Block) (k : Key),
    decryptBlock (encryptBlock b k) k = b ∧ encryptBlock (decryptBlock b k) k = b ∧
    ∀ sum : Word, decRound (encRound b sum k).1 (sum + 0x9E3779B9) k = (b, sum)

/-- R144: both modes round-trip on every Block Sequence, the empty one included. -/
def Obligations.ModesRoundTrip : Prop :=
  ∀ (k : Key) (iv : Block) (bs : List Block),
    ecbDecrypt (ecbEncrypt bs k) k = bs ∧ cbcDecrypt k (cbcEncrypt k bs iv) iv = bs

/-- R152: the transfer functions, run over the blocks in order from CH = iv, give the mode function that (cmode, cdir) selects. -/
def Obligations.TransferFunctionsAgreeWithModes : Prop :=
  ∀ (m : Mode) (d : Dir) (k : Key) (iv : Block) (bs : List Block), transferRun m d k bs iv = modeFunction m d k iv bs

/-- R146: altering one plaintext block changes that block's ciphertext and no earlier one. -/
def Obligations.CbcAlterationChangesNoEarlierBlock : Prop :=
  ∀ (k : Key) (iv p q : Block) (before after : List Block), p ≠ q →
    let out := cbcEncrypt k (before ++ p :: after) iv
    let out' := cbcEncrypt k (before ++ q :: after) iv
    out.take before.length = out'.take before.length ∧ out[before.length]? ≠ out'[before.length]?

/-- R168, R169: the codec round trip, and its length: 8 * ceil(n / 8) bytes for n. -/
def Obligations.CodecRoundTripAndLengths : Prop :=
  ∀ (data : List Byte) (bs : List Block),
    blocksToBytes (bytesToBlocks data).1 = pad data ∧ (pad data).take data.length = data ∧
    (pad data).length = 8 * ((data.length + 7) / 8) ∧ (bytesToBlocks data).1.length = (data.length + 7) / 8 ∧
    (bytesToBlocks data).2 = data.length ∧ (blocksToBytes bs).length = 8 * bs.length

/-- R160 to R163: packing is big-endian, and bytes and Words, bytes and Blocks convert both ways without loss. -/
def Obligations.BytesAndWordsConvertBothWays : Prop :=
  (∀ x0 x1 x2 x3 : Byte,
    (wordOfBytes x0 x1 x2 x3).toNat = x0.toNat * 2 ^ 24 + x1.toNat * 2 ^ 16 + x2.toNat * 2 ^ 8 + x3.toNat ∧
    bytesOfWord (wordOfBytes x0 x1 x2 x3) = [x0, x1, x2, x3]) ∧
  (∀ b : Block, blockOfBytes (bytesOfBlock b) = b ∧ (bytesOfBlock b).toList = bytesOfWord b.l ++ bytesOfWord b.r) ∧
  (∀ x : Vector Byte 8, bytesOfBlock (blockOfBytes x) = x)

/-- R171, R164, R165: the padded take of 1 to 8 packed bytes is the one Block of bytes_to_blocks on those bytes. -/
def Obligations.PaddedTakeIsTheCodecOnThePackedBytes : Prop :=
  ∀ (pack : Vector Byte 8) (pcnt : BitVec 4), 1 ≤ pcnt.toNat → pcnt.toNat ≤ 8 →
    (bytesToBlocks (pack.toList.take pcnt.toNat)).1 = [takeBlock pack pcnt]

/-! ## Register transactions -/

/-- R181, R182, R187 to R190, R198: reads of the ID constant and of the write-only registers, in every state; only RDATA is produced. -/
def Obligations.ConstantReads : Prop :=
  ∀ (s : State) (d : Word),
    let rd (a : BitVec 8) : Except Reject Instr := decode (0b0#1 ++ a ++ d)
    (rd 0x00 = .ok .rdId ∧ exec .rdId s = .next { s with rdata := some 0x54454131 }) ∧
    (rd 0x08 = .ok .rdCmd ∧ exec .rdCmd s = .next { s with rdata := some 0 }) ∧
    (rd 0x10 = .ok .rdKey0 ∧ exec .rdKey0 s = .next { s with rdata := some 0 }) ∧
    (rd 0x14 = .ok .rdKey1 ∧ exec .rdKey1 s = .next { s with rdata := some 0 }) ∧
    (rd 0x18 = .ok .rdKey2 ∧ exec .rdKey2 s = .next { s with rdata := some 0 }) ∧
    (rd 0x1C = .ok .rdKey3 ∧ exec .rdKey3 s = .next { s with rdata := some 0 }) ∧
    (rd 0x30 = .ok .rdDin ∧ exec .rdDin s = .next { s with rdata := some 0 })

/-- R183, R201, R202, R205 to R210: reads of CTRL and of the readable registers, in every state; only RDATA is produced. -/
def Obligations.RegisterReads : Prop :=
  ∀ (s : State) (d : Word),
    let rd (a : BitVec 8) : Except Reject Instr := decode (0b0#1 ++ a ++ d)
    (rd 0x04 = .ok .rdCtrl ∧ ∃ v : Word, exec .rdCtrl s = .next { s with rdata := some v } ∧
      v.toNat = (if s.ctrl.mode = .cbc then 1 else 0) + (if s.ctrl.dir = .dec then 2 else 0) + (if s.ctrl.ie then 4 else 0)) ∧
    (rd 0x20 = .ok .rdIvL ∧ exec .rdIvL s = .next { s with rdata := some s.iv.l }) ∧
    (rd 0x24 = .ok .rdIvR ∧ exec .rdIvR s = .next { s with rdata := some s.iv.r }) ∧
    (rd 0x28 = .ok .rdBlkL ∧ exec .rdBlkL s = .next { s with rdata := some s.blk.l }) ∧
    (rd 0x2C = .ok .rdBlkR ∧ exec .rdBlkR s = .next { s with rdata := some s.blk.r }) ∧
    (rd 0x38 = .ok .rdLen ∧ exec .rdLen s = .next { s with rdata := some s.len }) ∧
    (rd 0x3C = .ok .rdNblk ∧ exec .rdNblk s = .next { s with rdata := some s.nblk }) ∧
    (rd 0x40 = .ok .rdChainL ∧ exec .rdChainL s = .next { s with rdata := some s.chain.l }) ∧
    (rd 0x44 = .ok .rdChainR ∧ exec .rdChainR s = .next { s with rdata := some s.chain.r })

/-- R24, R185, R36, with the codes of R271: the STATUS word, bit by bit and field by field, the IRQ level among them; the read has no side
effect. -/
def Obligations.StatusReadShowsEveryField : Prop :=
  ∀ s : State, (∀ d : Word, decode (0b0#1 ++ 0x0C#8 ++ d) = .ok .rdStatus) ∧
   (s.irq = true ↔ s.ctrl.ie = true ∧ (s.done = true ∨ s.err = true)) ∧
   ∃ v : Word, exec .rdStatus s = .next { s with rdata := some v } ∧
    (v.getLsbD 0 = true ↔ s.st = .blkRun ∨ s.st = .sessRun) ∧
    (v.getLsbD 1 = true ↔ s.st = .sessWait ∨ s.st = .sessRun) ∧
    v.getLsbD 2 = s.fin ∧
    (v.getLsbD 3 = true ↔ (s.st = .sessWait ∨ s.st = .sessRun) ∧ s.fin = false ∧ s.pcnt.toNat < 8) ∧
    (v.getLsbD 4 = true ↔ 0 < s.ocnt.toNat) ∧
    v.getLsbD 5 = s.done ∧ v.getLsbD 6 = s.err ∧
    v.getLsbD 7 = s.irq ∧
    ([ErrCode.none, .keyMalformed, .ivMalformed, .illegalCmd, .busy, .noSession, .writeLocked, .overrun, .underrun, .badAccess,
      .lenOverflow, .outputPending][(v.extractLsb' 8 4).toNat]? = some s.errCode) ∧
    v.extractLsb' 12 4 = s.keyOk ∧ v.extractLsb' 16 2 = s.ivOk ∧ v.extractLsb' 18 2 = 0#2 ∧
    v.extractLsb' 20 4 = s.pcnt ∧ v.extractLsb' 24 4 = s.ocnt ∧ v.extractLsb' 28 4 = 0#4

/-- R184: WR_CTRL sets MODE, DIR and IE from WDATA[0], WDATA[1] and WDATA[2] in every state, and changes nothing else. -/
def Obligations.CtrlWriteSetsItsThreeBits : Prop :=
  ∀ (s : State) (d : Word), decode (0b1#1 ++ 0x04#8 ++ d) = .ok (.wrCtrl d) ∧ exec (.wrCtrl d) s = .next { s with
    ctrl := ⟨if d.getLsbD 0 then .cbc else .ecb, if d.getLsbD 1 then .dec else .enc, d.getLsbD 2⟩ }

/-- R192 to R195, R191: WR_KEYn in IDLE stores its Word, sets KEY_OK[n], and changes nothing else; while st ≠ IDLE it records WRITE_LOCKED and
changes nothing else. -/
def Obligations.KeyWrites : Prop :=
  ∀ (s : State) (d : Word),
    let wr (a : BitVec 8) : Except Reject Instr := decode (0b1#1 ++ a ++ d)
    let locked : State := { s with err := true, errCode := if s.err then s.errCode else .writeLocked }
    (wr 0x10 = .ok (.wrKey0 d) ∧ exec (.wrKey0 d) s = .next
      (if s.st = .idle then { s with key := ⟨d, s.key.k1, s.key.k2, s.key.k3⟩, keyOk := s.keyOk ||| 1#4 } else locked)) ∧
    (wr 0x14 = .ok (.wrKey1 d) ∧ exec (.wrKey1 d) s = .next
      (if s.st = .idle then { s with key := ⟨s.key.k0, d, s.key.k2, s.key.k3⟩, keyOk := s.keyOk ||| 2#4 } else locked)) ∧
    (wr 0x18 = .ok (.wrKey2 d) ∧ exec (.wrKey2 d) s = .next
      (if s.st = .idle then { s with key := ⟨s.key.k0, s.key.k1, d, s.key.k3⟩, keyOk := s.keyOk ||| 4#4 } else locked)) ∧
    (wr 0x1C = .ok (.wrKey3 d) ∧ exec (.wrKey3 d) s = .next
      (if s.st = .idle then { s with key := ⟨s.key.k0, s.key.k1, s.key.k2, d⟩, keyOk := s.keyOk ||| 8#4 } else locked))

/-- R199, R200, R203, R204, R191: in IDLE, WR_IV_L and WR_IV_R store and set their bit of IV_OK, WR_BLK_L and WR_BLK_R store, and nothing else
changes; while st ≠ IDLE each records WRITE_LOCKED and changes nothing else. -/
def Obligations.IvAndBlockWrites : Prop :=
  ∀ (s : State) (d : Word),
    let wr (a : BitVec 8) : Except Reject Instr := decode (0b1#1 ++ a ++ d)
    let locked : State := { s with err := true, errCode := if s.err then s.errCode else .writeLocked }
    (wr 0x20 = .ok (.wrIvL d) ∧ exec (.wrIvL d) s = .next
      (if s.st = .idle then { s with iv := ⟨d, s.iv.r⟩, ivOk := s.ivOk ||| 1#2 } else locked)) ∧
    (wr 0x24 = .ok (.wrIvR d) ∧ exec (.wrIvR d) s = .next
      (if s.st = .idle then { s with iv := ⟨s.iv.l, d⟩, ivOk := s.ivOk ||| 2#2 } else locked)) ∧
    (wr 0x28 = .ok (.wrBlkL d) ∧ exec (.wrBlkL d) s = .next (if s.st = .idle then { s with blk := ⟨d, s.blk.r⟩ } else locked)) ∧
    (wr 0x2C = .ok (.wrBlkR d) ∧ exec (.wrBlkR d) s = .next (if s.st = .idle then { s with blk := ⟨s.blk.l, d⟩ } else locked))

/-- R276: an error does not block later transactions: whatever ERR, ERRCODE and DONE hold, a transaction has the same effect on every other
element, and the same RDATA but for a STATUS read, which shows them. -/
def Obligations.ErrorsBlockNothing : Prop :=
  ∀ (s t : State) (w : Transaction) (rest : List Turn) (e d : Bool) (c : ErrCode), s.inputs = .host w :: rest → step s = .next t →
    ∃ e' d' c' r', step { s with err := e, done := d, errCode := c } = .next { t with err := e', done := d', errCode := c', rdata := r' } ∧
      (decode w ≠ .ok .rdStatus → r' = t.rdata)

/-- R196, R170, R277: a DIN write is refused with NO_SESSION, LEN_OVERFLOW or OVERRUN, in that priority, and the byte is dropped; otherwise
PACK[PCNT] takes WDATA[7:0], PCNT and LEN rise by 1, and nothing else changes. -/
def Obligations.DinPushStoresOrRefuses : Prop :=
  ∀ (s : State) (d : Word),
    let raised (c : ErrCode) : State := { s with err := true, errCode := if s.err then s.errCode else c }
    let inSession := s.st = .sessWait ∨ s.st = .sessRun
    decode (0b1#1 ++ 0x30#8 ++ d) = .ok (.wrDin d) ∧
    (¬ inSession ∨ s.fin = true → exec (.wrDin d) s = .next (raised .noSession)) ∧
    (inSession → s.fin = false → s.len.toNat = 2 ^ 32 - 1 → exec (.wrDin d) s = .next (raised .lenOverflow)) ∧
    (inSession → s.fin = false → s.len.toNat < 2 ^ 32 - 1 → s.pcnt = 8#4 → exec (.wrDin d) s = .next (raised .overrun)) ∧
    (inSession → s.fin = false → s.len.toNat < 2 ^ 32 - 1 → s.pcnt.toNat < 8 →
      ∃ t, exec (.wrDin d) s = .next t ∧
        (∀ i : Fin 8, t.pack[i] = if i.val = s.pcnt.toNat then d.extractLsb' 0 8 else s.pack[i]) ∧
        t.pcnt.toNat = s.pcnt.toNat + 1 ∧ t.len.toNat = s.len.toNat + 1 ∧
        { t with pack := s.pack, pcnt := s.pcnt, len := s.len } = s)

/-- R197, R173, R45: a DOUT read with OCNT = 0 returns 0 and records UNDERRUN; otherwise it returns OBUF[8 - OCNT], zero-extended, and lowers
OCNT by 1; nothing else changes, with or without a session. -/
def Obligations.DoutPopReturnsTheNextByte : Prop :=
  ∀ s : State,
    (∀ d : Word, decode (0b0#1 ++ 0x34#8 ++ d) = .ok .rdDout) ∧
    (s.ocnt = 0#4 → exec .rdDout s =
      .next { s with rdata := some 0, err := true, errCode := if s.err then s.errCode else .underrun }) ∧
    (∀ i : Fin 8, i.val + s.ocnt.toNat = 8 →
      ∃ v : Word, exec .rdDout s = .next { s with rdata := some v, ocnt := s.ocnt - 1 } ∧ v.toNat = s.obuf[i].toNat)

/-! ## Commands -/

/-- R221, R222, R277: ENC_BLOCK and DEC_BLOCK are refused with BUSY while st ≠ IDLE, then with KEY_MALFORMED unless KEY_OK = 0b1111;
accepted, they set cdir, W, SUM, RND and st and change nothing else. -/
def Obligations.BlockCommandsStartOrRefuse : Prop :=
  ∀ s : State,
    let raised (c : ErrCode) : State := { s with err := true, errCode := if s.err then s.errCode else c }
    (decode 0x10800000001#41 = .ok .encBlock ∧ decode 0x10800000002#41 = .ok .decBlock) ∧
    (s.st ≠ .idle → exec .encBlock s = .next (raised .busy) ∧ exec .decBlock s = .next (raised .busy)) ∧
    (s.st = .idle → s.keyOk ≠ 0b1111#4 →
      exec .encBlock s = .next (raised .keyMalformed) ∧ exec .decBlock s = .next (raised .keyMalformed)) ∧
    (s.st = .idle → s.keyOk = 0b1111#4 →
      exec .encBlock s = .next { s with cdir := .enc, w := s.blk, sum := 0, rnd := 0, st := .blkRun } ∧
      exec .decBlock s = .next { s with cdir := .dec, w := s.blk, sum := 0xC6EF3720, rnd := 0, st := .blkRun })

/-- R224, R277: START is refused with BUSY, OUTPUT_PENDING, KEY_MALFORMED and, in CBC only, IV_MALFORMED, in that priority; accepted, it
latches the mode and direction, loads CHAIN from the IV in either mode, clears LEN, NBLK and the packer, and opens the session. -/
def Obligations.StartOpensTheSessionOrRefuses : Prop :=
  ∀ s : State,
    let raised (c : ErrCode) : State := { s with err := true, errCode := if s.err then s.errCode else c }
    decode 0x10800000003#41 = .ok .start ∧
    (s.st ≠ .idle → exec .start s = .next (raised .busy)) ∧
    (s.st = .idle → s.ocnt ≠ 0#4 → exec .start s = .next (raised .outputPending)) ∧
    (s.st = .idle → s.ocnt = 0#4 → s.keyOk ≠ 0b1111#4 → exec .start s = .next (raised .keyMalformed)) ∧
    (s.st = .idle → s.ocnt = 0#4 → s.keyOk = 0b1111#4 → s.ctrl.mode = .cbc → s.ivOk ≠ 0b11#2 →
      exec .start s = .next (raised .ivMalformed)) ∧
    (s.st = .idle → s.ocnt = 0#4 → s.keyOk = 0b1111#4 → s.ctrl.mode = .ecb ∨ s.ivOk = 0b11#2 →
      exec .start s = .next { s with
        cmode := s.ctrl.mode, cdir := s.ctrl.dir, chain := s.iv, len := 0, nblk := 0,
        pack := #v[0, 0, 0, 0, 0, 0, 0, 0], pcnt := 0, fin := false, st := .sessWait })

/-- R223, R225: NOP changes nothing in any state; FINISH sets fin in a session, changes nothing a second time, and is refused with
NO_SESSION without one. -/
def Obligations.NopAndFinish : Prop :=
  ∀ s : State,
    (decode 0x10800000000#41 = .ok .nop ∧ decode 0x10800000004#41 = .ok .finish) ∧
    exec .nop s = .next s ∧
    (s.st = .sessWait ∨ s.st = .sessRun →
      exec .finish s = .next { s with fin := true } ∧ (s.fin = true → exec .finish s = .next s)) ∧
    (s.st = .idle ∨ s.st = .blkRun →
      exec .finish s = .next { s with err := true, errCode := if s.err then s.errCode else .noSession })

/-- R226, R227: ABORT returns to IDLE from every state and empties the buffers and the datapath; CLRSTAT clears DONE, ERR and ERRCODE;
neither changes anything else. -/
def Obligations.AbortAndClrstat : Prop :=
  ∀ s : State,
    (decode 0x10800000005#41 = .ok .abort ∧ decode 0x10800000006#41 = .ok .clrstat) ∧
    exec .abort s = .next { s with
      st := .idle, fin := false, pack := #v[0, 0, 0, 0, 0, 0, 0, 0], pcnt := 0, obuf := #v[0, 0, 0, 0, 0, 0, 0, 0], ocnt := 0,
      w := ⟨0, 0⟩, sum := 0, rnd := 0, inBlk := ⟨0, 0⟩ } ∧
    exec .clrstat s = .next { s with done := false, err := false, errCode := .none }

/-! ## Rules of the whole machine -/

/-- R211: a transaction never waits: every host turn completes in its step, whatever the word and the state. -/
def Obligations.TransactionNeverWaits : Prop :=
  ∀ (s : State) (t : Transaction) (rest : List Turn), s.inputs = .host t :: rest →
    ∃ s', step s = .next s' ∧ s'.inputs = rest

/-- R270, R272: errors are precise. A transaction that raises the first error changes nothing but ERR, ERRCODE and, for a read, RDATA, which
is 0; and one that changes ERRCODE while ERR is set is no error at all but CLRSTAT. -/
def Obligations.ErrorsArePrecise : Prop :=
  ∀ (s s' : State) (t : Transaction) (rest : List Turn), s.inputs = .host t :: rest → step s = .next s' →
    (s.err = false → s'.err = true → ∃ c, c ≠ .none ∧
      s' = { s with inputs := rest, err := true, errCode := c, rdata := if t.isWrite then s.rdata else some 0 }) ∧
    (s.err = true → s'.errCode ≠ s.errCode → t = encode .clrstat)

/-- R34, R35: ERR, ERRCODE and DONE are sticky. Only CLRSTAT and reset clear them; only a host transaction sets ERR; and only the core's
BLK_DONE and SESS_CLOSE set DONE. -/
def Obligations.OnlyClrstatAndResetClearStatus : Prop :=
  ∀ s t : State, step s = .next t →
    (s.inputs.head? ≠ some .reset → s.inputs.head? ≠ some (.host (encode .clrstat)) →
      (s.err = true → t.err = true ∧ t.errCode = s.errCode) ∧ (s.done = true → t.done = true)) ∧
    (s.err = false → t.err = true → ∃ w, s.inputs.head? = some (.host w)) ∧
    (s.done = false → t.done = true →
      (∃ rest, s.coreNext rest) ∧ ((s.st = .blkRun ∧ s.rnd = 32#6) ∨ (s.st = .sessWait ∧ s.fin = true ∧ s.pcnt = 0#4)))

/-- R302, R25, R26: reset zeroises the key and IV and clears KEY_OK and IV_OK; nothing else clears a bit of either, ABORT and CLRSTAT included. -/
def Obligations.OnlyResetClearsTheLoadedMasks : Prop :=
  ∀ s t : State, step s = .next t →
    (s.inputs.head? = some .reset → t.key = ⟨0, 0, 0, 0⟩ ∧ t.keyOk = 0#4 ∧ t.iv = ⟨0, 0⟩ ∧ t.ivOk = 0#2) ∧
    (s.inputs.head? ≠ some .reset → t.keyOk &&& s.keyOk = s.keyOk ∧ t.ivOk &&& s.ivOk = s.ivOk)

/-- While an operation is in progress, no step but reset changes the key, the IV or (but for BLK_DONE, which ends a block command) BLK
(R25, R26, R27, R191). -/
def Obligations.KeyIvAndBlockAreImmutableInAnOperation : Prop :=
  ∀ s t : State, s.st ≠ .idle → s.inputs.head? ≠ some .reset → step s = .next t →
    t.key = s.key ∧ t.keyOk = s.keyOk ∧ t.iv = s.iv ∧ t.ivOk = s.ivOk ∧
    (t.blk = s.blk ∨ (s.st = .blkRun ∧ s.rnd = 32#6 ∧ t.blk = s.w ∧ t.st = .idle))

/-- The key cannot be read back (R25, R187 to R190, R287): with another key, a host transaction gives the same RDATA and the same state, the
key apart. -/
def Obligations.TransactionsRevealNothingOfTheKey : Prop :=
  ∀ (s s' : State) (t : Transaction) (rest : List Turn) (k : Key), s.inputs = .host t :: rest → step s = .next s' →
    ∃ k' : Key, step { s with key := k } = .next { s' with key := k' }

/-- Hidden registers outside an operation, and OBUF once it is read out, are unobservable (R45, R128; 93 I17, I18): two states that differ only
there look the same to the host, and every step leads them to two such states. -/
def Obligations.StaleStateIsUnobservable : Prop :=
  ∀ s t : State, s.sameLive t →
    s.statusWord = t.statusWord ∧ s.irq = t.irq ∧
    ∀ s', step s = .next s' → ∃ t', step t = .next t' ∧ s'.sameLive t'

/-- R8, R252, R253, R255: once the host is silent, the core reaches within 66 steps a state in which no core step is enabled: a block in the
datapath, and at most one more from the packer. And in every fair run in which from some point on the host's program stays where it is (it has
ended, or waits in a loop), the core comes to rest and stays there; if the program has ended, the run is finished. -/
def Obligations.SilentHostRunFinishes : Prop :=
  (∀ s : State, s.inputs = [] → ∃ n t, n ≤ 66 ∧ core.run n s = .next t ∧ t.atRest = true) ∧
  (∀ (r : Nat → Hosted) (a : Nat → Agent) (n : Nat), Hosted.isRun r a → Hosted.fair r a → (∀ m, n ≤ m → (r m).program = (r n).program) →
    ∃ m, n ≤ m ∧ ∀ k, m ≤ k → (r k).dev.coreStep? = none ∧ ((r n).program = [] → (r k).finished = true))

/-- R246, R255, R312: a stalled session, its block finished and OBUF unread, stays as it is under any number of core turns and STATUS reads. A
wait loop of R312 (b), (c), (d), and of (a) as entry 18 reads it, never ends, whatever the interleaving: the program stays in it, and the run is
never finished. Of (a): with a block in OBUF and one in the datapath, a host that neither reads DOUT nor aborts never sees the packer taken
again; and one that pushes a further full block and then waits for IN_READY hangs. The model's choice at (a), entry 18: while the packer is not
full, `wait_in` ends at its next poll. -/
def Obligations.StalledSessionStaysStalled : Prop :=
  (∀ (s : State) (us : List Turn), s.st = .sessRun → s.rnd = 32#6 → s.ocnt ≠ 0#4 →
    (∀ u ∈ us, u = .core ∨ u = .host (encode .rdStatus)) →
    ∃ t, core.run us.length (s.withInputs us) = .next t ∧ { t with rdata := s.rdata } = { s with inputs := [] } ∧
      (t.rdata = s.rdata ∨ t.rdata = some s.statusWord)) ∧
  (∀ (h : Hosted) (c : WaitLoop) (rest : List HostOp), h.program = .poll c :: rest → c.hopeless h.dev = true →
    h.hangs ∧ ∀ (r : Nat → Hosted) (a : Nat → Agent), r 0 = h → Hosted.isRun r a → ∀ n, (r n).program = h.program) ∧
  (∀ (h : Hosted) (rest : List HostOp), h.program = .poll .inReady :: rest → h.dev.st = .sessRun → h.dev.fin = false → h.dev.pcnt < 8#4 →
    ∃ s, h.move .host = .next ⟨s, rest⟩) ∧
  (∀ (r : Nat → Hosted) (a : Nat → Agent), (r 0).dev.emitBlocked = true → (∀ op ∈ (r 0).program, op.leavesOutput) → Hosted.isRun r a →
    ∀ n, (r n).dev.emitBlocked = true ∧ CoreStep.sessTake.enabled (r n).dev = false) ∧
  (∀ (h : Hosted) (xs : List Byte) (rest : List HostOp), h.program = pushOps xs ++ .poll .inReady :: rest → xs.length = 8 →
    h.dev.emitBlocked = true → h.dev.fin = false → h.dev.pcnt.toNat ≤ 8 → h.dev.len.toNat + 8 < 2 ^ 32 → h.hangs)

/-! ## Operations as a whole -/

/-- R260: the round invariant of a block command, under every interleaving with host transactions other than ABORT: after n ≤ 32 core turns, W and
SUM are n rounds of the direction's round function applied to the operand, and BLK is still the operand. -/
def Obligations.BlockCommandRoundInvariant : Prop :=
  ∀ (s : State) (d : Dir) (us : List Turn), s.st = .idle → s.keyOk = 0b1111#4 → (∀ u ∈ us, u.keepsWork = true) → coreTurns us ≤ 32 →
    let command : Instr := if d = .enc then .encBlock else .decBlock
    let rounds : Block × Word :=
      if d = .enc then encRounds s.key (coreTurns us) s.blk 0 else decRounds s.key (coreTurns us) s.blk 0xC6EF3720
    ∃ t, core.run (us.length + 1) (s.withInputs (.host (encode command) :: us)) = .next t ∧
      t.st = .blkRun ∧ t.cdir = d ∧ t.rnd.toNat = coreTurns us ∧ (t.w, t.sum) = rounds ∧ t.blk = s.blk ∧ t.key = s.key

/-- R261, R254: under every interleaving without ABORT or reset, the 33rd core turn after an accepted ENC_BLOCK or DEC_BLOCK sets BLK to
encrypt_block or decrypt_block of the operand under the key, sets DONE and returns to IDLE. -/
def Obligations.BlockCommandCorrespondence : Prop :=
  ∀ (s : State) (d : Dir) (us : List Turn), s.st = .idle → s.keyOk = 0b1111#4 → (∀ u ∈ us, u.keepsWork = true) → coreTurns us = 32 →
    let command : Instr := if d = .enc then .encBlock else .decBlock
    let result : Block := if d = .enc then encryptBlock s.blk s.key else decryptBlock s.blk s.key
    ∃ t, core.run (us.length + 2) (s.withInputs (.host (encode command) :: us ++ [.core])) = .next t ∧
      t.st = .idle ∧ t.blk = result ∧ t.done = true

/-- R254, R243, R247: a session block takes 34 core steps from the take to the emit, and OBUF then holds mode_out of the primitive of mode_in of
the packed block. -/
def Obligations.SessionBlockTakesThirtyFourSteps : Prop :=
  ∀ s : State, s.inputs = [] → s.st = .sessWait → s.pcnt = 8#4 ∨ (s.fin = true ∧ 1#4 ≤ s.pcnt ∧ s.pcnt ≤ 7#4) → s.ocnt = 0#4 →
    let b := takeBlock s.pack s.pcnt
    let wf := primitive s.cdir (modeIn s.cmode s.cdir b s.chain) s.key
    ∃ t, core.run 34 s = .next t ∧ t.st = .sessWait ∧ t.pcnt = 0#4 ∧ t.ocnt = 8#4 ∧
      t.obuf = bytesOfBlock (modeOut s.cmode s.cdir wf s.chain) ∧ t.chain = chainNext s.cmode s.cdir wf b s.chain ∧
      t.nblk = s.nblk + 1 ∧ t.done = s.done ∧ t.fin = s.fin

/-- R262: when a session has closed, whatever the interleaving, the bytes its SESS_EMIT steps emitted are blocks_to_bytes of the mode function of
bytes_to_blocks of the bytes it accepted; LEN is their number n, NBLK is ceil(n / 8), and DONE is set. What the host has read through DOUT,
followed by what is left to read, is those bytes in that order. -/
def Obligations.SessionCorrespondence : Prop :=
  ∀ (s0 s : State) (din out dout : List Byte), SessionTrace s0 s din out dout → s.session = false →
    out = blocksToBytes (modeFunction s0.ctrl.mode s0.ctrl.dir s0.key s0.iv (bytesToBlocks din).1) ∧
    s.len.toNat = din.length ∧ s.nblk.toNat = (din.length + 7) / 8 ∧ s.st = .idle ∧ s.done = true ∧
    dout ++ s.unread = out

/-- R262, R173: at every point of a session the bytes read through DOUT, followed by those still in OBUF, are the bytes emitted so far, in order. -/
def Obligations.HostReadsTheEmittedBytesInOrder : Prop :=
  ∀ (s0 s : State) (din out dout : List Byte), SessionTrace s0 s din out dout → dout ++ s.unread = out

/-- R274, R147: START then FINISH with no DIN write closes normally: no output, LEN = NBLK = 0, DONE set, and no error raised. -/
def Obligations.EmptySessionClosesWithoutError : Prop :=
  ∀ s : State, s.acceptsStart →
    ∃ t, core.run 3 (s.withInputs [.host (encode .start), .host (encode .finish), .core]) = .next t ∧
      t.st = .idle ∧ t.fin = false ∧ t.len = 0 ∧ t.nblk = 0 ∧ t.ocnt = 0#4 ∧ t.done = true ∧ t.err = s.err ∧ t.errCode = s.errCode

/-- R90, R89, R91: a command, push, pop, rd and wr line is one transaction, the word written out; a wait line polls STATUS and ends on its flag. -/
def Obligations.ShorthandsAndWaitLoops : Prop :=
  ([Command.nop, .encBlock, .decBlock, .start, .finish, .abort, .clrstat].map (fun c => Line.expand (.cmd c)) =
    [[0x10800000000#41], [0x10800000001#41], [0x10800000002#41], [0x10800000003#41], [0x10800000004#41], [0x10800000005#41],
     [0x10800000006#41]]) ∧
  (∀ x : Byte, Line.expand (.push x) = [0b1#1 ++ 0x30#8 ++ 0x000000#24 ++ x]) ∧ Line.expand .pop = [0x03400000000#41] ∧
  (∀ (r : Reg) (v : Word), Line.expand (.rd r) = [0b0#1 ++ r.offset ++ 0#32] ∧ Line.expand (.wr r v) = [0b1#1 ++ r.offset ++ v]) ∧
  (∀ c : WaitLoop, Line.expand (.wait c) = [0x00C00000000#41]) ∧
  (∀ s : State, ∃ v : Word, exec .rdStatus s = .next { s with rdata := some v } ∧
    (WaitLoop.idle.ends v = true ↔ s.st = .idle ∨ s.st = .sessWait) ∧ (WaitLoop.done.ends v = true ↔ s.done = true) ∧
    (WaitLoop.inReady.ends v = true ↔ (s.st = .sessWait ∨ s.st = .sessRun) ∧ s.fin = false ∧ s.pcnt < 8#4) ∧
    (WaitLoop.outValid.ends v = true ↔ s.ocnt ≠ 0#4) ∧ (WaitLoop.closed.ends v = true ↔ s.st = .idle ∨ s.st = .blkRun))

/-- R91, R304: keyload, ivload and blkload in IDLE load the key, the IV and BLK and both masks, and change nothing else. -/
def Obligations.LoadPseudoInstructionsLoad : Prop :=
  ∀ (s : State) (a b c d l r x y : Word), s.st = .idle →
    core.run 8 (s.withInputs ((expandAll [.keyload a b c d, .ivload l r, .blkload x y]).map .host)) =
      .next { s with inputs := [], key := ⟨a, b, c, d⟩, keyOk := 0b1111#4, iv := ⟨l, r⟩, ivOk := 0b11#2, blk := ⟨x, y⟩ }

/-- R91, R160, R63: two pushw fill an empty packer with the big-endian bytes of their Words, so that the take gives the Block of the two. -/
def Obligations.PushwPacksBigEndianWords : Prop :=
  ∀ (s : State) (x y : Word), s.session = true → s.fin = false → s.pcnt = 0#4 → s.len.toNat + 8 < 2 ^ 32 →
    ∃ t, core.run 8 (s.withInputs ((expandAll [.pushw x, .pushw y]).map .host)) = .next t ∧
      t.pcnt = 8#4 ∧ t.len.toNat = s.len.toNat + 8 ∧ takeBlock t.pack t.pcnt = ⟨x, y⟩ ∧
      { t with inputs := [], pack := s.pack, pcnt := s.pcnt, len := s.len } = { s with inputs := [] }
end

