-- ==== Sys2Proof/Laws/Codec.lean ====
section
/-! SUPPORT. Small lemmas of the codec (43_codec.md). -/

namespace Sys2Proof.Machine

/-- The bytes of a packed Word (R160, R161). -/
theorem byteOfWord_wordOfBytes (x0 x1 x2 x3 : Byte) :
    byteOfWord (wordOfBytes x0 x1 x2 x3) 0 = x0 ∧ byteOfWord (wordOfBytes x0 x1 x2 x3) 1 = x1 ∧
    byteOfWord (wordOfBytes x0 x1 x2 x3) 2 = x2 ∧ byteOfWord (wordOfBytes x0 x1 x2 x3) 3 = x3 := by
  simp only [byteOfWord, wordOfBytes]
  refine ⟨?_, ?_, ?_, ?_⟩ <;>
  · apply BitVec.eq_of_getLsbD_eq
    intro i hi
    simp only [BitVec.getLsbD_extractLsb', BitVec.getLsbD_append, hi, decide_true, Bool.true_and]
    interval_cases i <;> simp

/-- A Word from its bytes. -/
theorem wordOfBytes_byteOfWord (w : Word) :
    wordOfBytes (byteOfWord w 0) (byteOfWord w 1) (byteOfWord w 2) (byteOfWord w 3) = w := by
  simp only [byteOfWord, wordOfBytes]
  apply BitVec.eq_of_getLsbD_eq
  intro i hi
  simp only [BitVec.getLsbD_append, BitVec.getLsbD_extractLsb']
  interval_cases i <;> simp

@[simp] theorem blocksToBytes_nil : blocksToBytes [] = [] := rfl

theorem blocksToBytes_append (a b : List Block) : blocksToBytes (a ++ b) = blocksToBytes a ++ blocksToBytes b := by
  simp [blocksToBytes]

/-- Padding depends on the length mod 8 only. -/
theorem pad_of_multiple {x : List Byte} (h : x.length % 8 = 0) : pad x = x := by
  simp [pad, h]

end Sys2Proof.Machine
end

