-- ==== Sys2Proof/Laws/Datapath.lean ====
section
/-! SUPPORT. Small lemmas of the datapath (40_arith.md, 41_tea.md, 42_modes.md). `delta_toNat` is there so that no proof has the kernel unfold
the literal inside an addition. -/

namespace Sys2Proof.Machine

theorem delta_toNat : delta.toNat = 0x9E3779B9 := rfl

/-- A decryption round takes back an encryption round, and the converse. -/
theorem decRound_encRound (b : Block) (s : Word) (k : Key) : decRound (encRound b s k).1 (encRound b s k).2 k = (b, s) := by
  obtain ⟨l, r⟩ := b
  simp [encRound, decRound, add32, sub32]

theorem encRound_decRound (b : Block) (s : Word) (k : Key) : encRound (decRound b s k).1 (decRound b s k).2 k = (b, s) := by
  obtain ⟨l, r⟩ := b
  simp [encRound, decRound, add32, sub32]

/-- The first of n + 1 rounds taken off the front. -/
theorem encRounds_front (k : Key) (n : Nat) (b : Block) (s : Word) :
    encRounds k (n + 1) b s = encRounds k n (encRound b s k).1 (encRound b s k).2 := by
  induction n with
  | zero => simp only [encRounds]
  | succ n ih => rw [encRounds, ih, encRounds]

theorem decRounds_front (k : Key) (n : Nat) (b : Block) (s : Word) :
    decRounds k (n + 1) b s = decRounds k n (decRound b s k).1 (decRound b s k).2 := by
  induction n with
  | zero => simp only [decRounds]
  | succ n ih => rw [decRounds, ih, decRounds]

/-- XOR with a chain Block twice gives the Block back. -/
theorem xorB_xorB_cancel (a b : Block) : xorB (xorB a b) b = a := by
  obtain ⟨l, r⟩ := a
  simp [xorB, xor32]

/-- A `primitive` is 32 rounds from the direction's initial sum. -/
theorem primitive_enc (b : Block) (k : Key) : primitive .enc b k = (encRounds k 32 b 0).1 := rfl
theorem primitive_dec (b : Block) (k : Key) : primitive .dec b k = (decRounds k 32 b sumDecInit).1 := rfl

end Sys2Proof.Machine
end

