-- ==== Sys2Proof/Laws/Decode.lean ====
section
/-! SUPPORT. The fields of a word, as the decoder extracts them and as the checks of WellFormed compute them, and what the decoder answers on an
assembled word (30_encoding.md R80, R82, R86). -/

namespace Sys2Proof

@[simp] theorem assemble_isWrite (w : Bool) (r : Reg) (d : Word) : (assemble w r d).isWrite = w := by
  cases w <;> cases r <;> simp [assemble, Transaction.isWrite, Reg.offset]

@[simp] theorem assemble_addr (w : Bool) (r : Reg) (d : Word) : (assemble w r d).addr = r.offset := by
  unfold assemble Transaction.addr
  apply BitVec.eq_of_getLsbD_eq
  intro i hi
  have h1 : 32 + i < 41 := by omega
  have h2 : 32 + i < 40 := by omega
  simp [hi, h1, h2]

@[simp] theorem assemble_wdata (w : Bool) (r : Reg) (d : Word) : (assemble w r d).wdata = d := by
  unfold assemble Transaction.wdata
  apply BitVec.eq_of_getLsbD_eq
  intro i hi
  have h1 : i < 41 := by omega
  have h2 : i < 40 := by omega
  simp [hi, h1, h2]

/-- A command word of at most 6 is a command, in the order of R84; any other is ILLEGAL_CMD (R220, R228). -/
theorem decodeCommand_eq (d : Word) :
    decodeCommand d =
      match [Instr.nop, .encBlock, .decBlock, .start, .finish, .abort, .clrstat][d.toNat]? with
      | some i => .ok i
      | none   => .error .illegalCmd := by
  by_cases h : d.toNat ≤ 6
  · have hd : d = BitVec.ofNat 32 d.toNat := by simp
    generalize d.toNat = n at h hd
    subst hd
    interval_cases n <;> rfl
  · have hrhs : [Instr.nop, .encBlock, .decBlock, .start, .finish, .abort, .clrstat][d.toNat]? = none := by
      simp only [List.getElem?_eq_none_iff, List.length_cons, List.length_nil]; omega
    rw [hrhs]
    simp only [decodeCommand]
    by_cases h28 : d.extractLsb' 4 28 = 0#28
    · have h4 : (d.extractLsb' 4 28).toNat = 0 := by rw [h28]; rfl
      have hlo : (d.extractLsb' 0 4).toNat = d.toNat := by
        simp only [BitVec.extractLsb'_toNat, Nat.shiftRight_eq_div_pow] at h4 ⊢
        have := d.isLt
        omega
      have hne : ∀ k : BitVec 4, k.toNat ≤ 6 → d.extractLsb' 0 4 ≠ k := by
        intro k hk he
        rw [he] at hlo
        omega
      simp [h28, hne 0x0#4, hne 0x1#4, hne 0x2#4, hne 0x3#4, hne 0x4#4, hne 0x5#4, hne 0x6#4]
    · simp [h28]

/-- What the decoder answers on an assembled word (R82 steps 3 to 5). -/
theorem decode_assemble (w : Bool) (r : Reg) (d : Word) :
    decode (assemble w r d) =
      if w = true ∧ isReadOnly r.offset = true then .error .badAccess
      else if w = true ∧ r = .cmd then decodeCommand d
      else if w then writeRow r d else .ok (readRow r) := by
  unfold decode
  rw [assemble_isWrite, assemble_addr, assemble_wdata]
  cases r <;> cases w <;> rfl

namespace Transaction

variable (t : Transaction)

theorem offset_eq_addr : t.offset = t.addr.toNat := by
  simp [offset, addr, BitVec.extractLsb'_toNat, Nat.shiftRight_eq_div_pow]

theorem dataNat_eq_wdata : t.dataNat = t.wdata.toNat := by
  simp [dataNat, wdata, BitVec.extractLsb'_toNat]

theorem writes_eq_isWrite : t.writes = t.isWrite := by
  have hlt : t.toNat < 2 ^ 41 := t.isLt
  have h : t.isWrite = t.toNat.testBit 40 := rfl
  rw [h, Nat.testBit_eq_decide_div_mod_eq]
  have : t.toNat / 2 ^ 40 % 2 = t.toNat / 2 ^ 40 := Nat.mod_eq_of_lt (by omega)
  simp only [writes, this]
  rfl

/-- The three fields are the whole word. -/
theorem eq_of_fields {t u : Transaction} (hw : t.isWrite = u.isWrite) (ha : t.addr = u.addr) (hd : t.wdata = u.wdata) : t = u := by
  have h1 : t.offset = u.offset := by rw [offset_eq_addr, offset_eq_addr, ha]
  have h2 : t.dataNat = u.dataNat := by rw [dataNat_eq_wdata, dataNat_eq_wdata, hd]
  have h3 : t.writes = u.writes := by rw [writes_eq_isWrite, writes_eq_isWrite, hw]
  have ht : t.toNat < 2 ^ 41 := t.isLt
  have hu : u.toNat < 2 ^ 41 := u.isLt
  have h3' : (t.toNat / 2 ^ 40 = 1) ↔ (u.toNat / 2 ^ 40 = 1) := by
    simp only [writes, beq_eq_beq] at h3
    constructor <;> intro h <;> simp_all
  apply BitVec.eq_of_toNat_eq
  simp only [offset, dataNat] at h1 h2
  omega

/-- A misaligned or unmapped transaction is BAD_ACCESS (R82 steps 1 and 2). -/
theorem decode_of_misplaced (h : t.aligned = false ∨ t.mapped = false) : decode t = .error .badAccess := by
  have hdec : ∀ a : BitVec 8, (a.toNat % 4 == 0) = false ∨ decide (a.toNat ≤ 0x44) = false →
      a.extractLsb' 0 2 ≠ 0b00#2 ∨ 0x44#8 < a := by decide
  simp only [aligned, mapped, offset_eq_addr] at h
  unfold decode
  rcases hdec _ h with h | h
  · rw [if_pos h]
  · rw [if_pos h]; simp

/-- An aligned and mapped transaction is an assembled word of the register at its offset (R62). -/
theorem eq_assemble (ha : t.aligned = true) (hm : t.mapped = true) : ∃ r : Reg, t = assemble t.isWrite r t.wdata := by
  have hreg : ∀ a : BitVec 8, (a.toNat % 4 == 0) = true → decide (a.toNat ≤ 0x44) = true → ∃ r ∈ (Reg.atOffset a), r.offset = a := by
    decide
  simp only [aligned, mapped, offset_eq_addr] at ha hm
  obtain ⟨r, -, hr⟩ := hreg _ ha hm
  exact ⟨r, eq_of_fields (by simp) (by simp [hr]) (by simp)⟩

end Transaction

/-- T written out by its fields, `W ++ ADDR ++ WDATA`, at the offset of a register (R80). -/
theorem fields_eq_assemble (w : BitVec 1) (r : Reg) (d : Word) : (w ++ r.offset ++ d : BitVec 41) = assemble (w.getLsbD 0) r d := by
  apply Transaction.eq_of_fields
  · rw [assemble_isWrite]
    show (w ++ r.offset ++ d : BitVec 41).getLsbD 40 = _
    simp only [BitVec.getLsbD_append]
    simp
  · rw [assemble_addr]
    show (w ++ r.offset ++ d : BitVec 41).extractLsb' 32 8 = _
    apply BitVec.eq_of_getLsbD_eq
    intro i hi
    simp only [BitVec.getLsbD_extractLsb', BitVec.getLsbD_append, hi, decide_true, Bool.true_and]
    interval_cases i <;> simp
  · rw [assemble_wdata]
    show (w ++ r.offset ++ d : BitVec 41).extractLsb' 0 32 = _
    apply BitVec.eq_of_getLsbD_eq
    intro i hi
    simp only [BitVec.getLsbD_extractLsb', BitVec.getLsbD_append, hi, decide_true, Bool.true_and]
    simp [hi]

end Sys2Proof
end

