-- ==== Sys2Proof/Laws/State.lean ====
section
/-! SUPPORT. One lemma per field per named update of the state, true by definition: no later proof unfolds a record update. -/

namespace Sys2Proof.Machine

variable (s : State)

/-! `withInputs` -/

@[simp] theorem withInputs_inputs (us : List Turn) : (s.withInputs us).inputs = us := rfl
@[simp] theorem withInputs_rdata (us : List Turn) : (s.withInputs us).rdata = s.rdata := rfl
@[simp] theorem withInputs_ctrl (us : List Turn) : (s.withInputs us).ctrl = s.ctrl := rfl
@[simp] theorem withInputs_key (us : List Turn) : (s.withInputs us).key = s.key := rfl
@[simp] theorem withInputs_keyOk (us : List Turn) : (s.withInputs us).keyOk = s.keyOk := rfl
@[simp] theorem withInputs_iv (us : List Turn) : (s.withInputs us).iv = s.iv := rfl
@[simp] theorem withInputs_ivOk (us : List Turn) : (s.withInputs us).ivOk = s.ivOk := rfl
@[simp] theorem withInputs_blk (us : List Turn) : (s.withInputs us).blk = s.blk := rfl
@[simp] theorem withInputs_chain (us : List Turn) : (s.withInputs us).chain = s.chain := rfl
@[simp] theorem withInputs_len (us : List Turn) : (s.withInputs us).len = s.len := rfl
@[simp] theorem withInputs_nblk (us : List Turn) : (s.withInputs us).nblk = s.nblk := rfl
@[simp] theorem withInputs_done (us : List Turn) : (s.withInputs us).done = s.done := rfl
@[simp] theorem withInputs_err (us : List Turn) : (s.withInputs us).err = s.err := rfl
@[simp] theorem withInputs_errCode (us : List Turn) : (s.withInputs us).errCode = s.errCode := rfl
@[simp] theorem withInputs_st (us : List Turn) : (s.withInputs us).st = s.st := rfl
@[simp] theorem withInputs_fin (us : List Turn) : (s.withInputs us).fin = s.fin := rfl
@[simp] theorem withInputs_cdir (us : List Turn) : (s.withInputs us).cdir = s.cdir := rfl
@[simp] theorem withInputs_cmode (us : List Turn) : (s.withInputs us).cmode = s.cmode := rfl
@[simp] theorem withInputs_w (us : List Turn) : (s.withInputs us).w = s.w := rfl
@[simp] theorem withInputs_sum (us : List Turn) : (s.withInputs us).sum = s.sum := rfl
@[simp] theorem withInputs_rnd (us : List Turn) : (s.withInputs us).rnd = s.rnd := rfl
@[simp] theorem withInputs_inBlk (us : List Turn) : (s.withInputs us).inBlk = s.inBlk := rfl
@[simp] theorem withInputs_pack (us : List Turn) : (s.withInputs us).pack = s.pack := rfl
@[simp] theorem withInputs_pcnt (us : List Turn) : (s.withInputs us).pcnt = s.pcnt := rfl
@[simp] theorem withInputs_obuf (us : List Turn) : (s.withInputs us).obuf = s.obuf := rfl
@[simp] theorem withInputs_ocnt (us : List Turn) : (s.withInputs us).ocnt = s.ocnt := rfl

/-! `answer` -/

@[simp] theorem answer_inputs (v : Word) : (s.answer v).inputs = s.inputs := rfl
@[simp] theorem answer_rdata (v : Word) : (s.answer v).rdata = some v := rfl
@[simp] theorem answer_ctrl (v : Word) : (s.answer v).ctrl = s.ctrl := rfl
@[simp] theorem answer_key (v : Word) : (s.answer v).key = s.key := rfl
@[simp] theorem answer_keyOk (v : Word) : (s.answer v).keyOk = s.keyOk := rfl
@[simp] theorem answer_iv (v : Word) : (s.answer v).iv = s.iv := rfl
@[simp] theorem answer_ivOk (v : Word) : (s.answer v).ivOk = s.ivOk := rfl
@[simp] theorem answer_blk (v : Word) : (s.answer v).blk = s.blk := rfl
@[simp] theorem answer_chain (v : Word) : (s.answer v).chain = s.chain := rfl
@[simp] theorem answer_len (v : Word) : (s.answer v).len = s.len := rfl
@[simp] theorem answer_nblk (v : Word) : (s.answer v).nblk = s.nblk := rfl
@[simp] theorem answer_done (v : Word) : (s.answer v).done = s.done := rfl
@[simp] theorem answer_err (v : Word) : (s.answer v).err = s.err := rfl
@[simp] theorem answer_errCode (v : Word) : (s.answer v).errCode = s.errCode := rfl
@[simp] theorem answer_st (v : Word) : (s.answer v).st = s.st := rfl
@[simp] theorem answer_fin (v : Word) : (s.answer v).fin = s.fin := rfl
@[simp] theorem answer_cdir (v : Word) : (s.answer v).cdir = s.cdir := rfl
@[simp] theorem answer_cmode (v : Word) : (s.answer v).cmode = s.cmode := rfl
@[simp] theorem answer_w (v : Word) : (s.answer v).w = s.w := rfl
@[simp] theorem answer_sum (v : Word) : (s.answer v).sum = s.sum := rfl
@[simp] theorem answer_rnd (v : Word) : (s.answer v).rnd = s.rnd := rfl
@[simp] theorem answer_inBlk (v : Word) : (s.answer v).inBlk = s.inBlk := rfl
@[simp] theorem answer_pack (v : Word) : (s.answer v).pack = s.pack := rfl
@[simp] theorem answer_pcnt (v : Word) : (s.answer v).pcnt = s.pcnt := rfl
@[simp] theorem answer_obuf (v : Word) : (s.answer v).obuf = s.obuf := rfl
@[simp] theorem answer_ocnt (v : Word) : (s.answer v).ocnt = s.ocnt := rfl

/-! `raise` -/

@[simp] theorem raise_inputs (c : ErrCode) : (s.raise c).inputs = s.inputs := rfl
@[simp] theorem raise_rdata (c : ErrCode) : (s.raise c).rdata = s.rdata := rfl
@[simp] theorem raise_ctrl (c : ErrCode) : (s.raise c).ctrl = s.ctrl := rfl
@[simp] theorem raise_key (c : ErrCode) : (s.raise c).key = s.key := rfl
@[simp] theorem raise_keyOk (c : ErrCode) : (s.raise c).keyOk = s.keyOk := rfl
@[simp] theorem raise_iv (c : ErrCode) : (s.raise c).iv = s.iv := rfl
@[simp] theorem raise_ivOk (c : ErrCode) : (s.raise c).ivOk = s.ivOk := rfl
@[simp] theorem raise_blk (c : ErrCode) : (s.raise c).blk = s.blk := rfl
@[simp] theorem raise_chain (c : ErrCode) : (s.raise c).chain = s.chain := rfl
@[simp] theorem raise_len (c : ErrCode) : (s.raise c).len = s.len := rfl
@[simp] theorem raise_nblk (c : ErrCode) : (s.raise c).nblk = s.nblk := rfl
@[simp] theorem raise_done (c : ErrCode) : (s.raise c).done = s.done := rfl
@[simp] theorem raise_err (c : ErrCode) : (s.raise c).err = true := rfl
@[simp] theorem raise_errCode (c : ErrCode) : (s.raise c).errCode = if s.err then s.errCode else c := rfl
@[simp] theorem raise_st (c : ErrCode) : (s.raise c).st = s.st := rfl
@[simp] theorem raise_fin (c : ErrCode) : (s.raise c).fin = s.fin := rfl
@[simp] theorem raise_cdir (c : ErrCode) : (s.raise c).cdir = s.cdir := rfl
@[simp] theorem raise_cmode (c : ErrCode) : (s.raise c).cmode = s.cmode := rfl
@[simp] theorem raise_w (c : ErrCode) : (s.raise c).w = s.w := rfl
@[simp] theorem raise_sum (c : ErrCode) : (s.raise c).sum = s.sum := rfl
@[simp] theorem raise_rnd (c : ErrCode) : (s.raise c).rnd = s.rnd := rfl
@[simp] theorem raise_inBlk (c : ErrCode) : (s.raise c).inBlk = s.inBlk := rfl
@[simp] theorem raise_pack (c : ErrCode) : (s.raise c).pack = s.pack := rfl
@[simp] theorem raise_pcnt (c : ErrCode) : (s.raise c).pcnt = s.pcnt := rfl
@[simp] theorem raise_obuf (c : ErrCode) : (s.raise c).obuf = s.obuf := rfl
@[simp] theorem raise_ocnt (c : ErrCode) : (s.raise c).ocnt = s.ocnt := rfl

/-! `clearStatus` -/

@[simp] theorem clearStatus_inputs : s.clearStatus.inputs = s.inputs := rfl
@[simp] theorem clearStatus_rdata : s.clearStatus.rdata = s.rdata := rfl
@[simp] theorem clearStatus_ctrl : s.clearStatus.ctrl = s.ctrl := rfl
@[simp] theorem clearStatus_key : s.clearStatus.key = s.key := rfl
@[simp] theorem clearStatus_keyOk : s.clearStatus.keyOk = s.keyOk := rfl
@[simp] theorem clearStatus_iv : s.clearStatus.iv = s.iv := rfl
@[simp] theorem clearStatus_ivOk : s.clearStatus.ivOk = s.ivOk := rfl
@[simp] theorem clearStatus_blk : s.clearStatus.blk = s.blk := rfl
@[simp] theorem clearStatus_chain : s.clearStatus.chain = s.chain := rfl
@[simp] theorem clearStatus_len : s.clearStatus.len = s.len := rfl
@[simp] theorem clearStatus_nblk : s.clearStatus.nblk = s.nblk := rfl
@[simp] theorem clearStatus_done : s.clearStatus.done = false := rfl
@[simp] theorem clearStatus_err : s.clearStatus.err = false := rfl
@[simp] theorem clearStatus_errCode : s.clearStatus.errCode = .none := rfl
@[simp] theorem clearStatus_st : s.clearStatus.st = s.st := rfl
@[simp] theorem clearStatus_fin : s.clearStatus.fin = s.fin := rfl
@[simp] theorem clearStatus_cdir : s.clearStatus.cdir = s.cdir := rfl
@[simp] theorem clearStatus_cmode : s.clearStatus.cmode = s.cmode := rfl
@[simp] theorem clearStatus_w : s.clearStatus.w = s.w := rfl
@[simp] theorem clearStatus_sum : s.clearStatus.sum = s.sum := rfl
@[simp] theorem clearStatus_rnd : s.clearStatus.rnd = s.rnd := rfl
@[simp] theorem clearStatus_inBlk : s.clearStatus.inBlk = s.inBlk := rfl
@[simp] theorem clearStatus_pack : s.clearStatus.pack = s.pack := rfl
@[simp] theorem clearStatus_pcnt : s.clearStatus.pcnt = s.pcnt := rfl
@[simp] theorem clearStatus_obuf : s.clearStatus.obuf = s.obuf := rfl
@[simp] theorem clearStatus_ocnt : s.clearStatus.ocnt = s.ocnt := rfl

/-! `putKey0` -/

@[simp] theorem putKey0_inputs (d : Word) : (s.putKey0 d).inputs = s.inputs := rfl
@[simp] theorem putKey0_rdata (d : Word) : (s.putKey0 d).rdata = s.rdata := rfl
@[simp] theorem putKey0_ctrl (d : Word) : (s.putKey0 d).ctrl = s.ctrl := rfl
@[simp] theorem putKey0_key (d : Word) : (s.putKey0 d).key = { s.key with k0 := d } := rfl
@[simp] theorem putKey0_keyOk (d : Word) : (s.putKey0 d).keyOk = s.keyOk ||| 0b0001#4 := rfl
@[simp] theorem putKey0_iv (d : Word) : (s.putKey0 d).iv = s.iv := rfl
@[simp] theorem putKey0_ivOk (d : Word) : (s.putKey0 d).ivOk = s.ivOk := rfl
@[simp] theorem putKey0_blk (d : Word) : (s.putKey0 d).blk = s.blk := rfl
@[simp] theorem putKey0_chain (d : Word) : (s.putKey0 d).chain = s.chain := rfl
@[simp] theorem putKey0_len (d : Word) : (s.putKey0 d).len = s.len := rfl
@[simp] theorem putKey0_nblk (d : Word) : (s.putKey0 d).nblk = s.nblk := rfl
@[simp] theorem putKey0_done (d : Word) : (s.putKey0 d).done = s.done := rfl
@[simp] theorem putKey0_err (d : Word) : (s.putKey0 d).err = s.err := rfl
@[simp] theorem putKey0_errCode (d : Word) : (s.putKey0 d).errCode = s.errCode := rfl
@[simp] theorem putKey0_st (d : Word) : (s.putKey0 d).st = s.st := rfl
@[simp] theorem putKey0_fin (d : Word) : (s.putKey0 d).fin = s.fin := rfl
@[simp] theorem putKey0_cdir (d : Word) : (s.putKey0 d).cdir = s.cdir := rfl
@[simp] theorem putKey0_cmode (d : Word) : (s.putKey0 d).cmode = s.cmode := rfl
@[simp] theorem putKey0_w (d : Word) : (s.putKey0 d).w = s.w := rfl
@[simp] theorem putKey0_sum (d : Word) : (s.putKey0 d).sum = s.sum := rfl
@[simp] theorem putKey0_rnd (d : Word) : (s.putKey0 d).rnd = s.rnd := rfl
@[simp] theorem putKey0_inBlk (d : Word) : (s.putKey0 d).inBlk = s.inBlk := rfl
@[simp] theorem putKey0_pack (d : Word) : (s.putKey0 d).pack = s.pack := rfl
@[simp] theorem putKey0_pcnt (d : Word) : (s.putKey0 d).pcnt = s.pcnt := rfl
@[simp] theorem putKey0_obuf (d : Word) : (s.putKey0 d).obuf = s.obuf := rfl
@[simp] theorem putKey0_ocnt (d : Word) : (s.putKey0 d).ocnt = s.ocnt := rfl

/-! `putKey1` -/

@[simp] theorem putKey1_inputs (d : Word) : (s.putKey1 d).inputs = s.inputs := rfl
@[simp] theorem putKey1_rdata (d : Word) : (s.putKey1 d).rdata = s.rdata := rfl
@[simp] theorem putKey1_ctrl (d : Word) : (s.putKey1 d).ctrl = s.ctrl := rfl
@[simp] theorem putKey1_key (d : Word) : (s.putKey1 d).key = { s.key with k1 := d } := rfl
@[simp] theorem putKey1_keyOk (d : Word) : (s.putKey1 d).keyOk = s.keyOk ||| 0b0010#4 := rfl
@[simp] theorem putKey1_iv (d : Word) : (s.putKey1 d).iv = s.iv := rfl
@[simp] theorem putKey1_ivOk (d : Word) : (s.putKey1 d).ivOk = s.ivOk := rfl
@[simp] theorem putKey1_blk (d : Word) : (s.putKey1 d).blk = s.blk := rfl
@[simp] theorem putKey1_chain (d : Word) : (s.putKey1 d).chain = s.chain := rfl
@[simp] theorem putKey1_len (d : Word) : (s.putKey1 d).len = s.len := rfl
@[simp] theorem putKey1_nblk (d : Word) : (s.putKey1 d).nblk = s.nblk := rfl
@[simp] theorem putKey1_done (d : Word) : (s.putKey1 d).done = s.done := rfl
@[simp] theorem putKey1_err (d : Word) : (s.putKey1 d).err = s.err := rfl
@[simp] theorem putKey1_errCode (d : Word) : (s.putKey1 d).errCode = s.errCode := rfl
@[simp] theorem putKey1_st (d : Word) : (s.putKey1 d).st = s.st := rfl
@[simp] theorem putKey1_fin (d : Word) : (s.putKey1 d).fin = s.fin := rfl
@[simp] theorem putKey1_cdir (d : Word) : (s.putKey1 d).cdir = s.cdir := rfl
@[simp] theorem putKey1_cmode (d : Word) : (s.putKey1 d).cmode = s.cmode := rfl
@[simp] theorem putKey1_w (d : Word) : (s.putKey1 d).w = s.w := rfl
@[simp] theorem putKey1_sum (d : Word) : (s.putKey1 d).sum = s.sum := rfl
@[simp] theorem putKey1_rnd (d : Word) : (s.putKey1 d).rnd = s.rnd := rfl
@[simp] theorem putKey1_inBlk (d : Word) : (s.putKey1 d).inBlk = s.inBlk := rfl
@[simp] theorem putKey1_pack (d : Word) : (s.putKey1 d).pack = s.pack := rfl
@[simp] theorem putKey1_pcnt (d : Word) : (s.putKey1 d).pcnt = s.pcnt := rfl
@[simp] theorem putKey1_obuf (d : Word) : (s.putKey1 d).obuf = s.obuf := rfl
@[simp] theorem putKey1_ocnt (d : Word) : (s.putKey1 d).ocnt = s.ocnt := rfl

/-! `putKey2` -/

@[simp] theorem putKey2_inputs (d : Word) : (s.putKey2 d).inputs = s.inputs := rfl
@[simp] theorem putKey2_rdata (d : Word) : (s.putKey2 d).rdata = s.rdata := rfl
@[simp] theorem putKey2_ctrl (d : Word) : (s.putKey2 d).ctrl = s.ctrl := rfl
@[simp] theorem putKey2_key (d : Word) : (s.putKey2 d).key = { s.key with k2 := d } := rfl
@[simp] theorem putKey2_keyOk (d : Word) : (s.putKey2 d).keyOk = s.keyOk ||| 0b0100#4 := rfl
@[simp] theorem putKey2_iv (d : Word) : (s.putKey2 d).iv = s.iv := rfl
@[simp] theorem putKey2_ivOk (d : Word) : (s.putKey2 d).ivOk = s.ivOk := rfl
@[simp] theorem putKey2_blk (d : Word) : (s.putKey2 d).blk = s.blk := rfl
@[simp] theorem putKey2_chain (d : Word) : (s.putKey2 d).chain = s.chain := rfl
@[simp] theorem putKey2_len (d : Word) : (s.putKey2 d).len = s.len := rfl
@[simp] theorem putKey2_nblk (d : Word) : (s.putKey2 d).nblk = s.nblk := rfl
@[simp] theorem putKey2_done (d : Word) : (s.putKey2 d).done = s.done := rfl
@[simp] theorem putKey2_err (d : Word) : (s.putKey2 d).err = s.err := rfl
@[simp] theorem putKey2_errCode (d : Word) : (s.putKey2 d).errCode = s.errCode := rfl
@[simp] theorem putKey2_st (d : Word) : (s.putKey2 d).st = s.st := rfl
@[simp] theorem putKey2_fin (d : Word) : (s.putKey2 d).fin = s.fin := rfl
@[simp] theorem putKey2_cdir (d : Word) : (s.putKey2 d).cdir = s.cdir := rfl
@[simp] theorem putKey2_cmode (d : Word) : (s.putKey2 d).cmode = s.cmode := rfl
@[simp] theorem putKey2_w (d : Word) : (s.putKey2 d).w = s.w := rfl
@[simp] theorem putKey2_sum (d : Word) : (s.putKey2 d).sum = s.sum := rfl
@[simp] theorem putKey2_rnd (d : Word) : (s.putKey2 d).rnd = s.rnd := rfl
@[simp] theorem putKey2_inBlk (d : Word) : (s.putKey2 d).inBlk = s.inBlk := rfl
@[simp] theorem putKey2_pack (d : Word) : (s.putKey2 d).pack = s.pack := rfl
@[simp] theorem putKey2_pcnt (d : Word) : (s.putKey2 d).pcnt = s.pcnt := rfl
@[simp] theorem putKey2_obuf (d : Word) : (s.putKey2 d).obuf = s.obuf := rfl
@[simp] theorem putKey2_ocnt (d : Word) : (s.putKey2 d).ocnt = s.ocnt := rfl

/-! `putKey3` -/

@[simp] theorem putKey3_inputs (d : Word) : (s.putKey3 d).inputs = s.inputs := rfl
@[simp] theorem putKey3_rdata (d : Word) : (s.putKey3 d).rdata = s.rdata := rfl
@[simp] theorem putKey3_ctrl (d : Word) : (s.putKey3 d).ctrl = s.ctrl := rfl
@[simp] theorem putKey3_key (d : Word) : (s.putKey3 d).key = { s.key with k3 := d } := rfl
@[simp] theorem putKey3_keyOk (d : Word) : (s.putKey3 d).keyOk = s.keyOk ||| 0b1000#4 := rfl
@[simp] theorem putKey3_iv (d : Word) : (s.putKey3 d).iv = s.iv := rfl
@[simp] theorem putKey3_ivOk (d : Word) : (s.putKey3 d).ivOk = s.ivOk := rfl
@[simp] theorem putKey3_blk (d : Word) : (s.putKey3 d).blk = s.blk := rfl
@[simp] theorem putKey3_chain (d : Word) : (s.putKey3 d).chain = s.chain := rfl
@[simp] theorem putKey3_len (d : Word) : (s.putKey3 d).len = s.len := rfl
@[simp] theorem putKey3_nblk (d : Word) : (s.putKey3 d).nblk = s.nblk := rfl
@[simp] theorem putKey3_done (d : Word) : (s.putKey3 d).done = s.done := rfl
@[simp] theorem putKey3_err (d : Word) : (s.putKey3 d).err = s.err := rfl
@[simp] theorem putKey3_errCode (d : Word) : (s.putKey3 d).errCode = s.errCode := rfl
@[simp] theorem putKey3_st (d : Word) : (s.putKey3 d).st = s.st := rfl
@[simp] theorem putKey3_fin (d : Word) : (s.putKey3 d).fin = s.fin := rfl
@[simp] theorem putKey3_cdir (d : Word) : (s.putKey3 d).cdir = s.cdir := rfl
@[simp] theorem putKey3_cmode (d : Word) : (s.putKey3 d).cmode = s.cmode := rfl
@[simp] theorem putKey3_w (d : Word) : (s.putKey3 d).w = s.w := rfl
@[simp] theorem putKey3_sum (d : Word) : (s.putKey3 d).sum = s.sum := rfl
@[simp] theorem putKey3_rnd (d : Word) : (s.putKey3 d).rnd = s.rnd := rfl
@[simp] theorem putKey3_inBlk (d : Word) : (s.putKey3 d).inBlk = s.inBlk := rfl
@[simp] theorem putKey3_pack (d : Word) : (s.putKey3 d).pack = s.pack := rfl
@[simp] theorem putKey3_pcnt (d : Word) : (s.putKey3 d).pcnt = s.pcnt := rfl
@[simp] theorem putKey3_obuf (d : Word) : (s.putKey3 d).obuf = s.obuf := rfl
@[simp] theorem putKey3_ocnt (d : Word) : (s.putKey3 d).ocnt = s.ocnt := rfl

/-! `putIvL` -/

@[simp] theorem putIvL_inputs (d : Word) : (s.putIvL d).inputs = s.inputs := rfl
@[simp] theorem putIvL_rdata (d : Word) : (s.putIvL d).rdata = s.rdata := rfl
@[simp] theorem putIvL_ctrl (d : Word) : (s.putIvL d).ctrl = s.ctrl := rfl
@[simp] theorem putIvL_key (d : Word) : (s.putIvL d).key = s.key := rfl
@[simp] theorem putIvL_keyOk (d : Word) : (s.putIvL d).keyOk = s.keyOk := rfl
@[simp] theorem putIvL_iv (d : Word) : (s.putIvL d).iv = { s.iv with l := d } := rfl
@[simp] theorem putIvL_ivOk (d : Word) : (s.putIvL d).ivOk = s.ivOk ||| 0b01#2 := rfl
@[simp] theorem putIvL_blk (d : Word) : (s.putIvL d).blk = s.blk := rfl
@[simp] theorem putIvL_chain (d : Word) : (s.putIvL d).chain = s.chain := rfl
@[simp] theorem putIvL_len (d : Word) : (s.putIvL d).len = s.len := rfl
@[simp] theorem putIvL_nblk (d : Word) : (s.putIvL d).nblk = s.nblk := rfl
@[simp] theorem putIvL_done (d : Word) : (s.putIvL d).done = s.done := rfl
@[simp] theorem putIvL_err (d : Word) : (s.putIvL d).err = s.err := rfl
@[simp] theorem putIvL_errCode (d : Word) : (s.putIvL d).errCode = s.errCode := rfl
@[simp] theorem putIvL_st (d : Word) : (s.putIvL d).st = s.st := rfl
@[simp] theorem putIvL_fin (d : Word) : (s.putIvL d).fin = s.fin := rfl
@[simp] theorem putIvL_cdir (d : Word) : (s.putIvL d).cdir = s.cdir := rfl
@[simp] theorem putIvL_cmode (d : Word) : (s.putIvL d).cmode = s.cmode := rfl
@[simp] theorem putIvL_w (d : Word) : (s.putIvL d).w = s.w := rfl
@[simp] theorem putIvL_sum (d : Word) : (s.putIvL d).sum = s.sum := rfl
@[simp] theorem putIvL_rnd (d : Word) : (s.putIvL d).rnd = s.rnd := rfl
@[simp] theorem putIvL_inBlk (d : Word) : (s.putIvL d).inBlk = s.inBlk := rfl
@[simp] theorem putIvL_pack (d : Word) : (s.putIvL d).pack = s.pack := rfl
@[simp] theorem putIvL_pcnt (d : Word) : (s.putIvL d).pcnt = s.pcnt := rfl
@[simp] theorem putIvL_obuf (d : Word) : (s.putIvL d).obuf = s.obuf := rfl
@[simp] theorem putIvL_ocnt (d : Word) : (s.putIvL d).ocnt = s.ocnt := rfl

/-! `putIvR` -/

@[simp] theorem putIvR_inputs (d : Word) : (s.putIvR d).inputs = s.inputs := rfl
@[simp] theorem putIvR_rdata (d : Word) : (s.putIvR d).rdata = s.rdata := rfl
@[simp] theorem putIvR_ctrl (d : Word) : (s.putIvR d).ctrl = s.ctrl := rfl
@[simp] theorem putIvR_key (d : Word) : (s.putIvR d).key = s.key := rfl
@[simp] theorem putIvR_keyOk (d : Word) : (s.putIvR d).keyOk = s.keyOk := rfl
@[simp] theorem putIvR_iv (d : Word) : (s.putIvR d).iv = { s.iv with r := d } := rfl
@[simp] theorem putIvR_ivOk (d : Word) : (s.putIvR d).ivOk = s.ivOk ||| 0b10#2 := rfl
@[simp] theorem putIvR_blk (d : Word) : (s.putIvR d).blk = s.blk := rfl
@[simp] theorem putIvR_chain (d : Word) : (s.putIvR d).chain = s.chain := rfl
@[simp] theorem putIvR_len (d : Word) : (s.putIvR d).len = s.len := rfl
@[simp] theorem putIvR_nblk (d : Word) : (s.putIvR d).nblk = s.nblk := rfl
@[simp] theorem putIvR_done (d : Word) : (s.putIvR d).done = s.done := rfl
@[simp] theorem putIvR_err (d : Word) : (s.putIvR d).err = s.err := rfl
@[simp] theorem putIvR_errCode (d : Word) : (s.putIvR d).errCode = s.errCode := rfl
@[simp] theorem putIvR_st (d : Word) : (s.putIvR d).st = s.st := rfl
@[simp] theorem putIvR_fin (d : Word) : (s.putIvR d).fin = s.fin := rfl
@[simp] theorem putIvR_cdir (d : Word) : (s.putIvR d).cdir = s.cdir := rfl
@[simp] theorem putIvR_cmode (d : Word) : (s.putIvR d).cmode = s.cmode := rfl
@[simp] theorem putIvR_w (d : Word) : (s.putIvR d).w = s.w := rfl
@[simp] theorem putIvR_sum (d : Word) : (s.putIvR d).sum = s.sum := rfl
@[simp] theorem putIvR_rnd (d : Word) : (s.putIvR d).rnd = s.rnd := rfl
@[simp] theorem putIvR_inBlk (d : Word) : (s.putIvR d).inBlk = s.inBlk := rfl
@[simp] theorem putIvR_pack (d : Word) : (s.putIvR d).pack = s.pack := rfl
@[simp] theorem putIvR_pcnt (d : Word) : (s.putIvR d).pcnt = s.pcnt := rfl
@[simp] theorem putIvR_obuf (d : Word) : (s.putIvR d).obuf = s.obuf := rfl
@[simp] theorem putIvR_ocnt (d : Word) : (s.putIvR d).ocnt = s.ocnt := rfl

/-! `putBlkL` -/

@[simp] theorem putBlkL_inputs (d : Word) : (s.putBlkL d).inputs = s.inputs := rfl
@[simp] theorem putBlkL_rdata (d : Word) : (s.putBlkL d).rdata = s.rdata := rfl
@[simp] theorem putBlkL_ctrl (d : Word) : (s.putBlkL d).ctrl = s.ctrl := rfl
@[simp] theorem putBlkL_key (d : Word) : (s.putBlkL d).key = s.key := rfl
@[simp] theorem putBlkL_keyOk (d : Word) : (s.putBlkL d).keyOk = s.keyOk := rfl
@[simp] theorem putBlkL_iv (d : Word) : (s.putBlkL d).iv = s.iv := rfl
@[simp] theorem putBlkL_ivOk (d : Word) : (s.putBlkL d).ivOk = s.ivOk := rfl
@[simp] theorem putBlkL_blk (d : Word) : (s.putBlkL d).blk = { s.blk with l := d } := rfl
@[simp] theorem putBlkL_chain (d : Word) : (s.putBlkL d).chain = s.chain := rfl
@[simp] theorem putBlkL_len (d : Word) : (s.putBlkL d).len = s.len := rfl
@[simp] theorem putBlkL_nblk (d : Word) : (s.putBlkL d).nblk = s.nblk := rfl
@[simp] theorem putBlkL_done (d : Word) : (s.putBlkL d).done = s.done := rfl
@[simp] theorem putBlkL_err (d : Word) : (s.putBlkL d).err = s.err := rfl
@[simp] theorem putBlkL_errCode (d : Word) : (s.putBlkL d).errCode = s.errCode := rfl
@[simp] theorem putBlkL_st (d : Word) : (s.putBlkL d).st = s.st := rfl
@[simp] theorem putBlkL_fin (d : Word) : (s.putBlkL d).fin = s.fin := rfl
@[simp] theorem putBlkL_cdir (d : Word) : (s.putBlkL d).cdir = s.cdir := rfl
@[simp] theorem putBlkL_cmode (d : Word) : (s.putBlkL d).cmode = s.cmode := rfl
@[simp] theorem putBlkL_w (d : Word) : (s.putBlkL d).w = s.w := rfl
@[simp] theorem putBlkL_sum (d : Word) : (s.putBlkL d).sum = s.sum := rfl
@[simp] theorem putBlkL_rnd (d : Word) : (s.putBlkL d).rnd = s.rnd := rfl
@[simp] theorem putBlkL_inBlk (d : Word) : (s.putBlkL d).inBlk = s.inBlk := rfl
@[simp] theorem putBlkL_pack (d : Word) : (s.putBlkL d).pack = s.pack := rfl
@[simp] theorem putBlkL_pcnt (d : Word) : (s.putBlkL d).pcnt = s.pcnt := rfl
@[simp] theorem putBlkL_obuf (d : Word) : (s.putBlkL d).obuf = s.obuf := rfl
@[simp] theorem putBlkL_ocnt (d : Word) : (s.putBlkL d).ocnt = s.ocnt := rfl

/-! `putBlkR` -/

@[simp] theorem putBlkR_inputs (d : Word) : (s.putBlkR d).inputs = s.inputs := rfl
@[simp] theorem putBlkR_rdata (d : Word) : (s.putBlkR d).rdata = s.rdata := rfl
@[simp] theorem putBlkR_ctrl (d : Word) : (s.putBlkR d).ctrl = s.ctrl := rfl
@[simp] theorem putBlkR_key (d : Word) : (s.putBlkR d).key = s.key := rfl
@[simp] theorem putBlkR_keyOk (d : Word) : (s.putBlkR d).keyOk = s.keyOk := rfl
@[simp] theorem putBlkR_iv (d : Word) : (s.putBlkR d).iv = s.iv := rfl
@[simp] theorem putBlkR_ivOk (d : Word) : (s.putBlkR d).ivOk = s.ivOk := rfl
@[simp] theorem putBlkR_blk (d : Word) : (s.putBlkR d).blk = { s.blk with r := d } := rfl
@[simp] theorem putBlkR_chain (d : Word) : (s.putBlkR d).chain = s.chain := rfl
@[simp] theorem putBlkR_len (d : Word) : (s.putBlkR d).len = s.len := rfl
@[simp] theorem putBlkR_nblk (d : Word) : (s.putBlkR d).nblk = s.nblk := rfl
@[simp] theorem putBlkR_done (d : Word) : (s.putBlkR d).done = s.done := rfl
@[simp] theorem putBlkR_err (d : Word) : (s.putBlkR d).err = s.err := rfl
@[simp] theorem putBlkR_errCode (d : Word) : (s.putBlkR d).errCode = s.errCode := rfl
@[simp] theorem putBlkR_st (d : Word) : (s.putBlkR d).st = s.st := rfl
@[simp] theorem putBlkR_fin (d : Word) : (s.putBlkR d).fin = s.fin := rfl
@[simp] theorem putBlkR_cdir (d : Word) : (s.putBlkR d).cdir = s.cdir := rfl
@[simp] theorem putBlkR_cmode (d : Word) : (s.putBlkR d).cmode = s.cmode := rfl
@[simp] theorem putBlkR_w (d : Word) : (s.putBlkR d).w = s.w := rfl
@[simp] theorem putBlkR_sum (d : Word) : (s.putBlkR d).sum = s.sum := rfl
@[simp] theorem putBlkR_rnd (d : Word) : (s.putBlkR d).rnd = s.rnd := rfl
@[simp] theorem putBlkR_inBlk (d : Word) : (s.putBlkR d).inBlk = s.inBlk := rfl
@[simp] theorem putBlkR_pack (d : Word) : (s.putBlkR d).pack = s.pack := rfl
@[simp] theorem putBlkR_pcnt (d : Word) : (s.putBlkR d).pcnt = s.pcnt := rfl
@[simp] theorem putBlkR_obuf (d : Word) : (s.putBlkR d).obuf = s.obuf := rfl
@[simp] theorem putBlkR_ocnt (d : Word) : (s.putBlkR d).ocnt = s.ocnt := rfl

/-! `putCtrl` -/

@[simp] theorem putCtrl_inputs (d : Word) : (s.putCtrl d).inputs = s.inputs := rfl
@[simp] theorem putCtrl_rdata (d : Word) : (s.putCtrl d).rdata = s.rdata := rfl
@[simp] theorem putCtrl_ctrl (d : Word) : (s.putCtrl d).ctrl = ctrlOfWord d := rfl
@[simp] theorem putCtrl_key (d : Word) : (s.putCtrl d).key = s.key := rfl
@[simp] theorem putCtrl_keyOk (d : Word) : (s.putCtrl d).keyOk = s.keyOk := rfl
@[simp] theorem putCtrl_iv (d : Word) : (s.putCtrl d).iv = s.iv := rfl
@[simp] theorem putCtrl_ivOk (d : Word) : (s.putCtrl d).ivOk = s.ivOk := rfl
@[simp] theorem putCtrl_blk (d : Word) : (s.putCtrl d).blk = s.blk := rfl
@[simp] theorem putCtrl_chain (d : Word) : (s.putCtrl d).chain = s.chain := rfl
@[simp] theorem putCtrl_len (d : Word) : (s.putCtrl d).len = s.len := rfl
@[simp] theorem putCtrl_nblk (d : Word) : (s.putCtrl d).nblk = s.nblk := rfl
@[simp] theorem putCtrl_done (d : Word) : (s.putCtrl d).done = s.done := rfl
@[simp] theorem putCtrl_err (d : Word) : (s.putCtrl d).err = s.err := rfl
@[simp] theorem putCtrl_errCode (d : Word) : (s.putCtrl d).errCode = s.errCode := rfl
@[simp] theorem putCtrl_st (d : Word) : (s.putCtrl d).st = s.st := rfl
@[simp] theorem putCtrl_fin (d : Word) : (s.putCtrl d).fin = s.fin := rfl
@[simp] theorem putCtrl_cdir (d : Word) : (s.putCtrl d).cdir = s.cdir := rfl
@[simp] theorem putCtrl_cmode (d : Word) : (s.putCtrl d).cmode = s.cmode := rfl
@[simp] theorem putCtrl_w (d : Word) : (s.putCtrl d).w = s.w := rfl
@[simp] theorem putCtrl_sum (d : Word) : (s.putCtrl d).sum = s.sum := rfl
@[simp] theorem putCtrl_rnd (d : Word) : (s.putCtrl d).rnd = s.rnd := rfl
@[simp] theorem putCtrl_inBlk (d : Word) : (s.putCtrl d).inBlk = s.inBlk := rfl
@[simp] theorem putCtrl_pack (d : Word) : (s.putCtrl d).pack = s.pack := rfl
@[simp] theorem putCtrl_pcnt (d : Word) : (s.putCtrl d).pcnt = s.pcnt := rfl
@[simp] theorem putCtrl_obuf (d : Word) : (s.putCtrl d).obuf = s.obuf := rfl
@[simp] theorem putCtrl_ocnt (d : Word) : (s.putCtrl d).ocnt = s.ocnt := rfl

/-! `pushByte` -/

@[simp] theorem pushByte_inputs (x : Byte) : (s.pushByte x).inputs = s.inputs := rfl
@[simp] theorem pushByte_rdata (x : Byte) : (s.pushByte x).rdata = s.rdata := rfl
@[simp] theorem pushByte_ctrl (x : Byte) : (s.pushByte x).ctrl = s.ctrl := rfl
@[simp] theorem pushByte_key (x : Byte) : (s.pushByte x).key = s.key := rfl
@[simp] theorem pushByte_keyOk (x : Byte) : (s.pushByte x).keyOk = s.keyOk := rfl
@[simp] theorem pushByte_iv (x : Byte) : (s.pushByte x).iv = s.iv := rfl
@[simp] theorem pushByte_ivOk (x : Byte) : (s.pushByte x).ivOk = s.ivOk := rfl
@[simp] theorem pushByte_blk (x : Byte) : (s.pushByte x).blk = s.blk := rfl
@[simp] theorem pushByte_chain (x : Byte) : (s.pushByte x).chain = s.chain := rfl
@[simp] theorem pushByte_len (x : Byte) : (s.pushByte x).len = s.len + 1 := rfl
@[simp] theorem pushByte_nblk (x : Byte) : (s.pushByte x).nblk = s.nblk := rfl
@[simp] theorem pushByte_done (x : Byte) : (s.pushByte x).done = s.done := rfl
@[simp] theorem pushByte_err (x : Byte) : (s.pushByte x).err = s.err := rfl
@[simp] theorem pushByte_errCode (x : Byte) : (s.pushByte x).errCode = s.errCode := rfl
@[simp] theorem pushByte_st (x : Byte) : (s.pushByte x).st = s.st := rfl
@[simp] theorem pushByte_fin (x : Byte) : (s.pushByte x).fin = s.fin := rfl
@[simp] theorem pushByte_cdir (x : Byte) : (s.pushByte x).cdir = s.cdir := rfl
@[simp] theorem pushByte_cmode (x : Byte) : (s.pushByte x).cmode = s.cmode := rfl
@[simp] theorem pushByte_w (x : Byte) : (s.pushByte x).w = s.w := rfl
@[simp] theorem pushByte_sum (x : Byte) : (s.pushByte x).sum = s.sum := rfl
@[simp] theorem pushByte_rnd (x : Byte) : (s.pushByte x).rnd = s.rnd := rfl
@[simp] theorem pushByte_inBlk (x : Byte) : (s.pushByte x).inBlk = s.inBlk := rfl
@[simp] theorem pushByte_pack (x : Byte) : (s.pushByte x).pack = s.pack.setIfInBounds s.pcnt.toNat x := rfl
@[simp] theorem pushByte_pcnt (x : Byte) : (s.pushByte x).pcnt = s.pcnt + 1 := rfl
@[simp] theorem pushByte_obuf (x : Byte) : (s.pushByte x).obuf = s.obuf := rfl
@[simp] theorem pushByte_ocnt (x : Byte) : (s.pushByte x).ocnt = s.ocnt := rfl

/-! `popByte` -/

@[simp] theorem popByte_inputs : s.popByte.inputs = s.inputs := rfl
@[simp] theorem popByte_rdata : s.popByte.rdata = s.rdata := rfl
@[simp] theorem popByte_ctrl : s.popByte.ctrl = s.ctrl := rfl
@[simp] theorem popByte_key : s.popByte.key = s.key := rfl
@[simp] theorem popByte_keyOk : s.popByte.keyOk = s.keyOk := rfl
@[simp] theorem popByte_iv : s.popByte.iv = s.iv := rfl
@[simp] theorem popByte_ivOk : s.popByte.ivOk = s.ivOk := rfl
@[simp] theorem popByte_blk : s.popByte.blk = s.blk := rfl
@[simp] theorem popByte_chain : s.popByte.chain = s.chain := rfl
@[simp] theorem popByte_len : s.popByte.len = s.len := rfl
@[simp] theorem popByte_nblk : s.popByte.nblk = s.nblk := rfl
@[simp] theorem popByte_done : s.popByte.done = s.done := rfl
@[simp] theorem popByte_err : s.popByte.err = s.err := rfl
@[simp] theorem popByte_errCode : s.popByte.errCode = s.errCode := rfl
@[simp] theorem popByte_st : s.popByte.st = s.st := rfl
@[simp] theorem popByte_fin : s.popByte.fin = s.fin := rfl
@[simp] theorem popByte_cdir : s.popByte.cdir = s.cdir := rfl
@[simp] theorem popByte_cmode : s.popByte.cmode = s.cmode := rfl
@[simp] theorem popByte_w : s.popByte.w = s.w := rfl
@[simp] theorem popByte_sum : s.popByte.sum = s.sum := rfl
@[simp] theorem popByte_rnd : s.popByte.rnd = s.rnd := rfl
@[simp] theorem popByte_inBlk : s.popByte.inBlk = s.inBlk := rfl
@[simp] theorem popByte_pack : s.popByte.pack = s.pack := rfl
@[simp] theorem popByte_pcnt : s.popByte.pcnt = s.pcnt := rfl
@[simp] theorem popByte_obuf : s.popByte.obuf = s.obuf := rfl
@[simp] theorem popByte_ocnt : s.popByte.ocnt = s.ocnt - 1 := rfl

/-! `beginBlock` -/

@[simp] theorem beginBlock_inputs (d : Dir) : (s.beginBlock d).inputs = s.inputs := rfl
@[simp] theorem beginBlock_rdata (d : Dir) : (s.beginBlock d).rdata = s.rdata := rfl
@[simp] theorem beginBlock_ctrl (d : Dir) : (s.beginBlock d).ctrl = s.ctrl := rfl
@[simp] theorem beginBlock_key (d : Dir) : (s.beginBlock d).key = s.key := rfl
@[simp] theorem beginBlock_keyOk (d : Dir) : (s.beginBlock d).keyOk = s.keyOk := rfl
@[simp] theorem beginBlock_iv (d : Dir) : (s.beginBlock d).iv = s.iv := rfl
@[simp] theorem beginBlock_ivOk (d : Dir) : (s.beginBlock d).ivOk = s.ivOk := rfl
@[simp] theorem beginBlock_blk (d : Dir) : (s.beginBlock d).blk = s.blk := rfl
@[simp] theorem beginBlock_chain (d : Dir) : (s.beginBlock d).chain = s.chain := rfl
@[simp] theorem beginBlock_len (d : Dir) : (s.beginBlock d).len = s.len := rfl
@[simp] theorem beginBlock_nblk (d : Dir) : (s.beginBlock d).nblk = s.nblk := rfl
@[simp] theorem beginBlock_done (d : Dir) : (s.beginBlock d).done = s.done := rfl
@[simp] theorem beginBlock_err (d : Dir) : (s.beginBlock d).err = s.err := rfl
@[simp] theorem beginBlock_errCode (d : Dir) : (s.beginBlock d).errCode = s.errCode := rfl
@[simp] theorem beginBlock_st (d : Dir) : (s.beginBlock d).st = .blkRun := rfl
@[simp] theorem beginBlock_fin (d : Dir) : (s.beginBlock d).fin = s.fin := rfl
@[simp] theorem beginBlock_cdir (d : Dir) : (s.beginBlock d).cdir = d := rfl
@[simp] theorem beginBlock_cmode (d : Dir) : (s.beginBlock d).cmode = s.cmode := rfl
@[simp] theorem beginBlock_w (d : Dir) : (s.beginBlock d).w = s.blk := rfl
@[simp] theorem beginBlock_sum (d : Dir) : (s.beginBlock d).sum = sumInit d := rfl
@[simp] theorem beginBlock_rnd (d : Dir) : (s.beginBlock d).rnd = 0 := rfl
@[simp] theorem beginBlock_inBlk (d : Dir) : (s.beginBlock d).inBlk = s.inBlk := rfl
@[simp] theorem beginBlock_pack (d : Dir) : (s.beginBlock d).pack = s.pack := rfl
@[simp] theorem beginBlock_pcnt (d : Dir) : (s.beginBlock d).pcnt = s.pcnt := rfl
@[simp] theorem beginBlock_obuf (d : Dir) : (s.beginBlock d).obuf = s.obuf := rfl
@[simp] theorem beginBlock_ocnt (d : Dir) : (s.beginBlock d).ocnt = s.ocnt := rfl

/-! `openSession` -/

@[simp] theorem openSession_inputs : s.openSession.inputs = s.inputs := rfl
@[simp] theorem openSession_rdata : s.openSession.rdata = s.rdata := rfl
@[simp] theorem openSession_ctrl : s.openSession.ctrl = s.ctrl := rfl
@[simp] theorem openSession_key : s.openSession.key = s.key := rfl
@[simp] theorem openSession_keyOk : s.openSession.keyOk = s.keyOk := rfl
@[simp] theorem openSession_iv : s.openSession.iv = s.iv := rfl
@[simp] theorem openSession_ivOk : s.openSession.ivOk = s.ivOk := rfl
@[simp] theorem openSession_blk : s.openSession.blk = s.blk := rfl
@[simp] theorem openSession_chain : s.openSession.chain = s.iv := rfl
@[simp] theorem openSession_len : s.openSession.len = 0 := rfl
@[simp] theorem openSession_nblk : s.openSession.nblk = 0 := rfl
@[simp] theorem openSession_done : s.openSession.done = s.done := rfl
@[simp] theorem openSession_err : s.openSession.err = s.err := rfl
@[simp] theorem openSession_errCode : s.openSession.errCode = s.errCode := rfl
@[simp] theorem openSession_st : s.openSession.st = .sessWait := rfl
@[simp] theorem openSession_fin : s.openSession.fin = false := rfl
@[simp] theorem openSession_cdir : s.openSession.cdir = s.ctrl.dir := rfl
@[simp] theorem openSession_cmode : s.openSession.cmode = s.ctrl.mode := rfl
@[simp] theorem openSession_w : s.openSession.w = s.w := rfl
@[simp] theorem openSession_sum : s.openSession.sum = s.sum := rfl
@[simp] theorem openSession_rnd : s.openSession.rnd = s.rnd := rfl
@[simp] theorem openSession_inBlk : s.openSession.inBlk = s.inBlk := rfl
@[simp] theorem openSession_pack : s.openSession.pack = zeroBytes := rfl
@[simp] theorem openSession_pcnt : s.openSession.pcnt = 0 := rfl
@[simp] theorem openSession_obuf : s.openSession.obuf = s.obuf := rfl
@[simp] theorem openSession_ocnt : s.openSession.ocnt = s.ocnt := rfl

/-! `endInput` -/

@[simp] theorem endInput_inputs : s.endInput.inputs = s.inputs := rfl
@[simp] theorem endInput_rdata : s.endInput.rdata = s.rdata := rfl
@[simp] theorem endInput_ctrl : s.endInput.ctrl = s.ctrl := rfl
@[simp] theorem endInput_key : s.endInput.key = s.key := rfl
@[simp] theorem endInput_keyOk : s.endInput.keyOk = s.keyOk := rfl
@[simp] theorem endInput_iv : s.endInput.iv = s.iv := rfl
@[simp] theorem endInput_ivOk : s.endInput.ivOk = s.ivOk := rfl
@[simp] theorem endInput_blk : s.endInput.blk = s.blk := rfl
@[simp] theorem endInput_chain : s.endInput.chain = s.chain := rfl
@[simp] theorem endInput_len : s.endInput.len = s.len := rfl
@[simp] theorem endInput_nblk : s.endInput.nblk = s.nblk := rfl
@[simp] theorem endInput_done : s.endInput.done = s.done := rfl
@[simp] theorem endInput_err : s.endInput.err = s.err := rfl
@[simp] theorem endInput_errCode : s.endInput.errCode = s.errCode := rfl
@[simp] theorem endInput_st : s.endInput.st = s.st := rfl
@[simp] theorem endInput_fin : s.endInput.fin = true := rfl
@[simp] theorem endInput_cdir : s.endInput.cdir = s.cdir := rfl
@[simp] theorem endInput_cmode : s.endInput.cmode = s.cmode := rfl
@[simp] theorem endInput_w : s.endInput.w = s.w := rfl
@[simp] theorem endInput_sum : s.endInput.sum = s.sum := rfl
@[simp] theorem endInput_rnd : s.endInput.rnd = s.rnd := rfl
@[simp] theorem endInput_inBlk : s.endInput.inBlk = s.inBlk := rfl
@[simp] theorem endInput_pack : s.endInput.pack = s.pack := rfl
@[simp] theorem endInput_pcnt : s.endInput.pcnt = s.pcnt := rfl
@[simp] theorem endInput_obuf : s.endInput.obuf = s.obuf := rfl
@[simp] theorem endInput_ocnt : s.endInput.ocnt = s.ocnt := rfl

/-! `abortWork` -/

@[simp] theorem abortWork_inputs : s.abortWork.inputs = s.inputs := rfl
@[simp] theorem abortWork_rdata : s.abortWork.rdata = s.rdata := rfl
@[simp] theorem abortWork_ctrl : s.abortWork.ctrl = s.ctrl := rfl
@[simp] theorem abortWork_key : s.abortWork.key = s.key := rfl
@[simp] theorem abortWork_keyOk : s.abortWork.keyOk = s.keyOk := rfl
@[simp] theorem abortWork_iv : s.abortWork.iv = s.iv := rfl
@[simp] theorem abortWork_ivOk : s.abortWork.ivOk = s.ivOk := rfl
@[simp] theorem abortWork_blk : s.abortWork.blk = s.blk := rfl
@[simp] theorem abortWork_chain : s.abortWork.chain = s.chain := rfl
@[simp] theorem abortWork_len : s.abortWork.len = s.len := rfl
@[simp] theorem abortWork_nblk : s.abortWork.nblk = s.nblk := rfl
@[simp] theorem abortWork_done : s.abortWork.done = s.done := rfl
@[simp] theorem abortWork_err : s.abortWork.err = s.err := rfl
@[simp] theorem abortWork_errCode : s.abortWork.errCode = s.errCode := rfl
@[simp] theorem abortWork_st : s.abortWork.st = .idle := rfl
@[simp] theorem abortWork_fin : s.abortWork.fin = false := rfl
@[simp] theorem abortWork_cdir : s.abortWork.cdir = s.cdir := rfl
@[simp] theorem abortWork_cmode : s.abortWork.cmode = s.cmode := rfl
@[simp] theorem abortWork_w : s.abortWork.w = ⟨0, 0⟩ := rfl
@[simp] theorem abortWork_sum : s.abortWork.sum = 0 := rfl
@[simp] theorem abortWork_rnd : s.abortWork.rnd = 0 := rfl
@[simp] theorem abortWork_inBlk : s.abortWork.inBlk = ⟨0, 0⟩ := rfl
@[simp] theorem abortWork_pack : s.abortWork.pack = zeroBytes := rfl
@[simp] theorem abortWork_pcnt : s.abortWork.pcnt = 0 := rfl
@[simp] theorem abortWork_obuf : s.abortWork.obuf = zeroBytes := rfl
@[simp] theorem abortWork_ocnt : s.abortWork.ocnt = 0 := rfl

/-! `roundStep` -/

@[simp] theorem roundStep_inputs : s.roundStep.inputs = s.inputs := rfl
@[simp] theorem roundStep_rdata : s.roundStep.rdata = s.rdata := rfl
@[simp] theorem roundStep_ctrl : s.roundStep.ctrl = s.ctrl := rfl
@[simp] theorem roundStep_key : s.roundStep.key = s.key := rfl
@[simp] theorem roundStep_keyOk : s.roundStep.keyOk = s.keyOk := rfl
@[simp] theorem roundStep_iv : s.roundStep.iv = s.iv := rfl
@[simp] theorem roundStep_ivOk : s.roundStep.ivOk = s.ivOk := rfl
@[simp] theorem roundStep_blk : s.roundStep.blk = s.blk := rfl
@[simp] theorem roundStep_chain : s.roundStep.chain = s.chain := rfl
@[simp] theorem roundStep_len : s.roundStep.len = s.len := rfl
@[simp] theorem roundStep_nblk : s.roundStep.nblk = s.nblk := rfl
@[simp] theorem roundStep_done : s.roundStep.done = s.done := rfl
@[simp] theorem roundStep_err : s.roundStep.err = s.err := rfl
@[simp] theorem roundStep_errCode : s.roundStep.errCode = s.errCode := rfl
@[simp] theorem roundStep_st : s.roundStep.st = s.st := rfl
@[simp] theorem roundStep_fin : s.roundStep.fin = s.fin := rfl
@[simp] theorem roundStep_cdir : s.roundStep.cdir = s.cdir := rfl
@[simp] theorem roundStep_cmode : s.roundStep.cmode = s.cmode := rfl
@[simp] theorem roundStep_w : s.roundStep.w = (roundIn s.cdir s.w s.sum s.key).1 := rfl
@[simp] theorem roundStep_sum : s.roundStep.sum = (roundIn s.cdir s.w s.sum s.key).2 := rfl
@[simp] theorem roundStep_rnd : s.roundStep.rnd = s.rnd + 1 := rfl
@[simp] theorem roundStep_inBlk : s.roundStep.inBlk = s.inBlk := rfl
@[simp] theorem roundStep_pack : s.roundStep.pack = s.pack := rfl
@[simp] theorem roundStep_pcnt : s.roundStep.pcnt = s.pcnt := rfl
@[simp] theorem roundStep_obuf : s.roundStep.obuf = s.obuf := rfl
@[simp] theorem roundStep_ocnt : s.roundStep.ocnt = s.ocnt := rfl

/-! `blockDone` -/

@[simp] theorem blockDone_inputs : s.blockDone.inputs = s.inputs := rfl
@[simp] theorem blockDone_rdata : s.blockDone.rdata = s.rdata := rfl
@[simp] theorem blockDone_ctrl : s.blockDone.ctrl = s.ctrl := rfl
@[simp] theorem blockDone_key : s.blockDone.key = s.key := rfl
@[simp] theorem blockDone_keyOk : s.blockDone.keyOk = s.keyOk := rfl
@[simp] theorem blockDone_iv : s.blockDone.iv = s.iv := rfl
@[simp] theorem blockDone_ivOk : s.blockDone.ivOk = s.ivOk := rfl
@[simp] theorem blockDone_blk : s.blockDone.blk = s.w := rfl
@[simp] theorem blockDone_chain : s.blockDone.chain = s.chain := rfl
@[simp] theorem blockDone_len : s.blockDone.len = s.len := rfl
@[simp] theorem blockDone_nblk : s.blockDone.nblk = s.nblk := rfl
@[simp] theorem blockDone_done : s.blockDone.done = true := rfl
@[simp] theorem blockDone_err : s.blockDone.err = s.err := rfl
@[simp] theorem blockDone_errCode : s.blockDone.errCode = s.errCode := rfl
@[simp] theorem blockDone_st : s.blockDone.st = .idle := rfl
@[simp] theorem blockDone_fin : s.blockDone.fin = s.fin := rfl
@[simp] theorem blockDone_cdir : s.blockDone.cdir = s.cdir := rfl
@[simp] theorem blockDone_cmode : s.blockDone.cmode = s.cmode := rfl
@[simp] theorem blockDone_w : s.blockDone.w = s.w := rfl
@[simp] theorem blockDone_sum : s.blockDone.sum = s.sum := rfl
@[simp] theorem blockDone_rnd : s.blockDone.rnd = s.rnd := rfl
@[simp] theorem blockDone_inBlk : s.blockDone.inBlk = s.inBlk := rfl
@[simp] theorem blockDone_pack : s.blockDone.pack = s.pack := rfl
@[simp] theorem blockDone_pcnt : s.blockDone.pcnt = s.pcnt := rfl
@[simp] theorem blockDone_obuf : s.blockDone.obuf = s.obuf := rfl
@[simp] theorem blockDone_ocnt : s.blockDone.ocnt = s.ocnt := rfl

/-! `takeInput` -/

@[simp] theorem takeInput_inputs : s.takeInput.inputs = s.inputs := rfl
@[simp] theorem takeInput_rdata : s.takeInput.rdata = s.rdata := rfl
@[simp] theorem takeInput_ctrl : s.takeInput.ctrl = s.ctrl := rfl
@[simp] theorem takeInput_key : s.takeInput.key = s.key := rfl
@[simp] theorem takeInput_keyOk : s.takeInput.keyOk = s.keyOk := rfl
@[simp] theorem takeInput_iv : s.takeInput.iv = s.iv := rfl
@[simp] theorem takeInput_ivOk : s.takeInput.ivOk = s.ivOk := rfl
@[simp] theorem takeInput_blk : s.takeInput.blk = s.blk := rfl
@[simp] theorem takeInput_chain : s.takeInput.chain = s.chain := rfl
@[simp] theorem takeInput_len : s.takeInput.len = s.len := rfl
@[simp] theorem takeInput_nblk : s.takeInput.nblk = s.nblk := rfl
@[simp] theorem takeInput_done : s.takeInput.done = s.done := rfl
@[simp] theorem takeInput_err : s.takeInput.err = s.err := rfl
@[simp] theorem takeInput_errCode : s.takeInput.errCode = s.errCode := rfl
@[simp] theorem takeInput_st : s.takeInput.st = .sessRun := rfl
@[simp] theorem takeInput_fin : s.takeInput.fin = s.fin := rfl
@[simp] theorem takeInput_cdir : s.takeInput.cdir = s.cdir := rfl
@[simp] theorem takeInput_cmode : s.takeInput.cmode = s.cmode := rfl
@[simp] theorem takeInput_w : s.takeInput.w = modeIn s.cmode s.cdir (takeBlock s.pack s.pcnt) s.chain := rfl
@[simp] theorem takeInput_sum : s.takeInput.sum = sumInit s.cdir := rfl
@[simp] theorem takeInput_rnd : s.takeInput.rnd = 0 := rfl
@[simp] theorem takeInput_inBlk : s.takeInput.inBlk = takeBlock s.pack s.pcnt := rfl
@[simp] theorem takeInput_pack : s.takeInput.pack = zeroBytes := rfl
@[simp] theorem takeInput_pcnt : s.takeInput.pcnt = 0 := rfl
@[simp] theorem takeInput_obuf : s.takeInput.obuf = s.obuf := rfl
@[simp] theorem takeInput_ocnt : s.takeInput.ocnt = s.ocnt := rfl

/-! `emitOutput` -/

@[simp] theorem emitOutput_inputs : s.emitOutput.inputs = s.inputs := rfl
@[simp] theorem emitOutput_rdata : s.emitOutput.rdata = s.rdata := rfl
@[simp] theorem emitOutput_ctrl : s.emitOutput.ctrl = s.ctrl := rfl
@[simp] theorem emitOutput_key : s.emitOutput.key = s.key := rfl
@[simp] theorem emitOutput_keyOk : s.emitOutput.keyOk = s.keyOk := rfl
@[simp] theorem emitOutput_iv : s.emitOutput.iv = s.iv := rfl
@[simp] theorem emitOutput_ivOk : s.emitOutput.ivOk = s.ivOk := rfl
@[simp] theorem emitOutput_blk : s.emitOutput.blk = s.blk := rfl
@[simp] theorem emitOutput_chain : s.emitOutput.chain = chainNext s.cmode s.cdir s.w s.inBlk s.chain := rfl
@[simp] theorem emitOutput_len : s.emitOutput.len = s.len := rfl
@[simp] theorem emitOutput_nblk : s.emitOutput.nblk = s.nblk + 1 := rfl
@[simp] theorem emitOutput_done : s.emitOutput.done = s.done := rfl
@[simp] theorem emitOutput_err : s.emitOutput.err = s.err := rfl
@[simp] theorem emitOutput_errCode : s.emitOutput.errCode = s.errCode := rfl
@[simp] theorem emitOutput_st : s.emitOutput.st = .sessWait := rfl
@[simp] theorem emitOutput_fin : s.emitOutput.fin = s.fin := rfl
@[simp] theorem emitOutput_cdir : s.emitOutput.cdir = s.cdir := rfl
@[simp] theorem emitOutput_cmode : s.emitOutput.cmode = s.cmode := rfl
@[simp] theorem emitOutput_w : s.emitOutput.w = s.w := rfl
@[simp] theorem emitOutput_sum : s.emitOutput.sum = s.sum := rfl
@[simp] theorem emitOutput_rnd : s.emitOutput.rnd = s.rnd := rfl
@[simp] theorem emitOutput_inBlk : s.emitOutput.inBlk = s.inBlk := rfl
@[simp] theorem emitOutput_pack : s.emitOutput.pack = s.pack := rfl
@[simp] theorem emitOutput_pcnt : s.emitOutput.pcnt = s.pcnt := rfl
@[simp] theorem emitOutput_obuf : s.emitOutput.obuf = bytesOfBlock (modeOut s.cmode s.cdir s.w s.chain) := rfl
@[simp] theorem emitOutput_ocnt : s.emitOutput.ocnt = 8 := rfl

/-! `closeSession` -/

@[simp] theorem closeSession_inputs : s.closeSession.inputs = s.inputs := rfl
@[simp] theorem closeSession_rdata : s.closeSession.rdata = s.rdata := rfl
@[simp] theorem closeSession_ctrl : s.closeSession.ctrl = s.ctrl := rfl
@[simp] theorem closeSession_key : s.closeSession.key = s.key := rfl
@[simp] theorem closeSession_keyOk : s.closeSession.keyOk = s.keyOk := rfl
@[simp] theorem closeSession_iv : s.closeSession.iv = s.iv := rfl
@[simp] theorem closeSession_ivOk : s.closeSession.ivOk = s.ivOk := rfl
@[simp] theorem closeSession_blk : s.closeSession.blk = s.blk := rfl
@[simp] theorem closeSession_chain : s.closeSession.chain = s.chain := rfl
@[simp] theorem closeSession_len : s.closeSession.len = s.len := rfl
@[simp] theorem closeSession_nblk : s.closeSession.nblk = s.nblk := rfl
@[simp] theorem closeSession_done : s.closeSession.done = true := rfl
@[simp] theorem closeSession_err : s.closeSession.err = s.err := rfl
@[simp] theorem closeSession_errCode : s.closeSession.errCode = s.errCode := rfl
@[simp] theorem closeSession_st : s.closeSession.st = .idle := rfl
@[simp] theorem closeSession_fin : s.closeSession.fin = false := rfl
@[simp] theorem closeSession_cdir : s.closeSession.cdir = s.cdir := rfl
@[simp] theorem closeSession_cmode : s.closeSession.cmode = s.cmode := rfl
@[simp] theorem closeSession_w : s.closeSession.w = s.w := rfl
@[simp] theorem closeSession_sum : s.closeSession.sum = s.sum := rfl
@[simp] theorem closeSession_rnd : s.closeSession.rnd = s.rnd := rfl
@[simp] theorem closeSession_inBlk : s.closeSession.inBlk = s.inBlk := rfl
@[simp] theorem closeSession_pack : s.closeSession.pack = s.pack := rfl
@[simp] theorem closeSession_pcnt : s.closeSession.pcnt = s.pcnt := rfl
@[simp] theorem closeSession_obuf : s.closeSession.obuf = s.obuf := rfl
@[simp] theorem closeSession_ocnt : s.closeSession.ocnt = s.ocnt := rfl

end Sys2Proof.Machine
end

