-- ==== Sys2Proof/Laws/Ops.lean ====
section
/-! SUPPORT. One spec lemma per shared operation and computed flag: what it can do, once. -/

namespace Sys2Proof.Machine

variable (s : State)

theorem session_iff : s.session = true ↔ s.st = .sessWait ∨ s.st = .sessRun := by
  simp [State.session]

theorem session_eq_false_iff : s.session = false ↔ s.st = .idle ∨ s.st = .blkRun := by
  cases h : s.st <;> simp [State.session, h]

theorem busy_iff : s.busy = true ↔ s.st = .blkRun ∨ s.st = .sessRun := by
  simp [State.busy]

theorem irq_iff : s.irq = true ↔ s.ctrl.ie = true ∧ (s.done = true ∨ s.err = true) := by
  simp [State.irq]

/-- Flags computed from fields that an update leaves alone. -/
theorem session_congr {s t : State} (h : t.st = s.st) : t.session = s.session := by
  simp [State.session, h]

theorem busy_congr {s t : State} (h : t.st = s.st) : t.busy = s.busy := by
  simp [State.busy, h]

@[simp] theorem withInputs_session (us : List Turn) : (s.withInputs us).session = s.session := rfl
@[simp] theorem withInputs_busy (us : List Turn) : (s.withInputs us).busy = s.busy := rfl
@[simp] theorem withInputs_statusWord (us : List Turn) : (s.withInputs us).statusWord = s.statusWord := rfl
@[simp] theorem answer_session (v : Word) : (s.answer v).session = s.session := rfl
@[simp] theorem answer_busy (v : Word) : (s.answer v).busy = s.busy := rfl
@[simp] theorem answer_statusWord (v : Word) : (s.answer v).statusWord = s.statusWord := rfl
@[simp] theorem raise_session (c : ErrCode) : (s.raise c).session = s.session := rfl
@[simp] theorem raise_busy (c : ErrCode) : (s.raise c).busy = s.busy := rfl
@[simp] theorem withInputs_withInputs (us vs : List Turn) : (s.withInputs us).withInputs vs = s.withInputs vs := rfl
@[simp] theorem withInputs_self : s.withInputs s.inputs = s := rfl

/-- The STATUS word, bit by bit (R24). -/
theorem statusWord_getLsbD (i : Nat) : s.statusWord.getLsbD i =
    (decide (i < 32) &&
      if i = 0 then s.busy else if i = 1 then s.session else if i = 2 then s.fin else if i = 3 then s.inReady
      else if i = 4 then s.outValid else if i = 5 then s.done else if i = 6 then s.err else if i = 7 then s.irq
      else if i < 12 then s.errCode.bits.getLsbD (i - 8) else if i < 16 then s.keyOk.getLsbD (i - 12)
      else if i < 18 then s.ivOk.getLsbD (i - 16) else if i < 20 then false
      else if i < 24 then s.pcnt.getLsbD (i - 20) else s.ocnt.getLsbD (i - 24)) := by
  unfold State.statusWord
  simp only [BitVec.getLsbD_setWidth, BitVec.getLsbD_append, BitVec.getLsbD_ofBool]
  by_cases h : i < 32
  · interval_cases i <;> simp
  · simp [h]

/-- R272 with ERR clear: the code is stored. -/
theorem raise_of_clear (c : ErrCode) (h : s.err = false) : s.raise c = { s with err := true, errCode := c } := by
  simp [State.raise, h]

/-- R272 with ERR set: the first code is kept. -/
theorem raise_of_set (c : ErrCode) (h : s.err = true) : s.raise c = s := by
  cases s; simp_all [State.raise]

/-- The lock is open in IDLE (R191). -/
theorem lockedWrite_of_idle (t : State) (h : s.st = .idle) : s.lockedWrite t = t := by
  simp [State.lockedWrite, h]

/-- The lock refuses while st ≠ IDLE (R191). -/
theorem lockedWrite_of_locked (t : State) (h : s.st ≠ .idle) : s.lockedWrite t = s.raise .writeLocked := by
  simp [State.lockedWrite, h]

/-- A locked write either happens, in IDLE, or records WRITE_LOCKED. -/
theorem lockedWrite_cases (t : State) :
    (s.st = .idle ∧ s.lockedWrite t = t) ∨ (s.st ≠ .idle ∧ s.lockedWrite t = s.raise .writeLocked) := by
  by_cases h : s.st = .idle
  · exact .inl ⟨h, lockedWrite_of_idle s t h⟩
  · exact .inr ⟨h, lockedWrite_of_locked s t h⟩

/-- A rejected transaction records its error; a read among them answers 0 (R86). -/
theorem reject_cases (why : Reject) (w : Bool) :
    (w = true ∧ s.reject why w = s.raise (Reject.code why)) ∨
    (w = false ∧ s.reject why w = (s.raise (Reject.code why)).answer 0) := by
  cases w <;> simp [State.reject]

/-- A block command is refused with BUSY, then KEY_MALFORMED, or starts (R221, R222). -/
theorem blockCommand_cases (d : Dir) :
    (s.st ≠ .idle ∧ s.blockCommand d = s.raise .busy) ∨
    (s.st = .idle ∧ s.keyOk ≠ 0b1111#4 ∧ s.blockCommand d = s.raise .keyMalformed) ∨
    (s.st = .idle ∧ s.keyOk = 0b1111#4 ∧ s.blockCommand d = s.beginBlock d) := by
  unfold State.blockCommand
  split
  · exact .inl ⟨‹_›, rfl⟩
  · split
    · exact .inr (.inl ⟨by simp_all, ‹_›, rfl⟩)
    · exact .inr (.inr ⟨by simp_all, by simp_all, rfl⟩)

/-- The byte at the head of OBUF (R45): index 8 - OCNT. -/
theorem nextOut_eq (i : Fin 8) (h : i.val + s.ocnt.toNat = 8) : s.nextOut = s.obuf[i] := by
  have hi : 8 - s.ocnt.toNat = i.val := by omega
  simp [State.nextOut, hi]

/-- The packed bytes after a push below 8 (R170). -/
theorem pushByte_pack_get (x : Byte) (i : Fin 8) :
    (s.pushByte x).pack[i] = if i.val = s.pcnt.toNat then x else s.pack[i] := by
  simp only [pushByte_pack, Fin.getElem_fin, Vector.getElem_setIfInBounds]
  split <;> split <;> simp_all

/-- The padded take, byte by byte (R171). -/
theorem takeBlock_eq (pack : Vector Byte 8) (pcnt : BitVec 4) :
    takeBlock pack pcnt =
      let x (i : Fin 8) : Byte := if i.val < pcnt.toNat then pack[i] else 0x00
      ⟨wordOfBytes (x 0) (x 1) (x 2) (x 3), wordOfBytes (x 4) (x 5) (x 6) (x 7)⟩ := by
  simp [takeBlock, blockOfBytes]

/-- R243's own words on its flags: "PCNT becomes 0, so IN_READY becomes 1 if fin = 0", whatever OBUF holds (entry 18). -/
theorem takeInput_inReady : s.takeInput.inReady = !s.fin := by
  simp [State.takeInput, State.inReady, State.session]

end Sys2Proof.Machine
end

