-- ==== Sys2Proof/Laws/Sequencer.lean ====
section
/-! SUPPORT. What a turn of the CORE can do (46_sequencer.md R240). -/

namespace Sys2Proof.Machine

variable (s : State)

theorem blkRound_enabled_iff : CoreStep.blkRound.enabled s = true ↔ s.st = .blkRun ∧ s.rnd < 32#6 := by
  simp [CoreStep.enabled]

theorem blkDone_enabled_iff : CoreStep.blkDone.enabled s = true ↔ s.st = .blkRun ∧ s.rnd = 32#6 := by
  simp [CoreStep.enabled]

theorem sessTake_enabled_iff : CoreStep.sessTake.enabled s = true ↔
    s.st = .sessWait ∧ (s.pcnt = 8#4 ∨ (s.fin = true ∧ 1#4 ≤ s.pcnt ∧ s.pcnt ≤ 7#4)) := by
  simp [CoreStep.enabled, and_assoc]

theorem sessRound_enabled_iff : CoreStep.sessRound.enabled s = true ↔ s.st = .sessRun ∧ s.rnd < 32#6 := by
  simp [CoreStep.enabled]

theorem sessEmit_enabled_iff : CoreStep.sessEmit.enabled s = true ↔ s.st = .sessRun ∧ s.rnd = 32#6 ∧ s.ocnt = 0#4 := by
  simp [CoreStep.enabled, and_assoc]

theorem sessClose_enabled_iff : CoreStep.sessClose.enabled s = true ↔ s.st = .sessWait ∧ s.fin = true ∧ s.pcnt = 0#4 := by
  simp [CoreStep.enabled, and_assoc]

/-- The step taken is enabled. -/
theorem enabled_of_coreStep? {c : CoreStep} (h : s.coreStep? = some c) : c.enabled s = true :=
  List.find?_some (p := fun c : CoreStep => c.enabled s) h

/-- Where no step is taken, none is enabled. -/
theorem not_enabled_of_coreStep?_none (h : s.coreStep? = none) (c : CoreStep) : c.enabled s = false := by
  have h' := List.find?_eq_none.mp h c (by cases c <;> simp [CoreStep.rows])
  simpa using h'

/-- A core turn does nothing where no step is enabled, and otherwise performs an enabled step. -/
theorem coreTurn_cases :
    (s.coreTurn = s ∧ ∀ c : CoreStep, c.enabled s = false) ∨
    (∃ c : CoreStep, c.enabled s = true ∧ s.coreTurn = c.perform s) := by
  cases h : s.coreStep? with
  | none => exact .inl ⟨by simp [State.coreTurn, h], not_enabled_of_coreStep?_none s h⟩
  | some c => exact .inr ⟨c, enabled_of_coreStep? s h, by simp [State.coreTurn, h]⟩

/-- The rows of the core step table, one by one: what a core turn leads to and when (R240 to R249). -/
theorem coreTurn_spec :
    (s.coreTurn = s ∧ ∀ c : CoreStep, c.enabled s = false) ∨
    (((s.st = .blkRun ∨ s.st = .sessRun) ∧ s.rnd < 32#6) ∧ s.coreTurn = s.roundStep) ∨
    ((s.st = .blkRun ∧ s.rnd = 32#6) ∧ s.coreTurn = s.blockDone) ∨
    ((s.st = .sessWait ∧ (s.pcnt = 8#4 ∨ (s.fin = true ∧ 1#4 ≤ s.pcnt ∧ s.pcnt ≤ 7#4))) ∧ s.coreTurn = s.takeInput) ∨
    ((s.st = .sessRun ∧ s.rnd = 32#6 ∧ s.ocnt = 0#4) ∧ s.coreTurn = s.emitOutput) ∨
    ((s.st = .sessWait ∧ s.fin = true ∧ s.pcnt = 0#4) ∧ s.coreTurn = s.closeSession) := by
  obtain h | ⟨c, hc, h⟩ := coreTurn_cases s
  · exact .inl h
  · cases c with
    | blkRound  => have := (blkRound_enabled_iff s).mp hc; exact .inr (.inl ⟨⟨.inl this.1, this.2⟩, h⟩)
    | blkDone   => exact .inr (.inr (.inl ⟨(blkDone_enabled_iff s).mp hc, h⟩))
    | sessTake  => exact .inr (.inr (.inr (.inl ⟨(sessTake_enabled_iff s).mp hc, h⟩)))
    | sessRound => have := (sessRound_enabled_iff s).mp hc; exact .inr (.inl ⟨⟨.inr this.1, this.2⟩, h⟩)
    | sessEmit  => exact .inr (.inr (.inr (.inr (.inl ⟨(sessEmit_enabled_iff s).mp hc, h⟩))))
    | sessClose => exact .inr (.inr (.inr (.inr (.inr ⟨(sessClose_enabled_iff s).mp hc, h⟩))))

/-- A core turn never looks at the schedule or at RDATA. -/
theorem coreTurn_withInputs (us : List Turn) : (s.withInputs us).coreTurn = s.coreTurn.withInputs us := by
  have h : (s.withInputs us).coreStep? = s.coreStep? := rfl
  unfold State.coreTurn
  rw [h]
  cases s.coreStep? with
  | none => rfl
  | some c => cases c <;> rfl

@[simp] theorem coreTurn_inputs : s.coreTurn.inputs = s.inputs := by
  unfold State.coreTurn
  cases s.coreStep? with
  | none => rfl
  | some c => cases c <;> rfl

/-- In IDLE no core step is enabled (R249). -/
theorem coreTurn_of_idle (h : s.st = .idle) : s.coreTurn = s := by
  obtain ⟨he, _⟩ | ⟨c, hc, _⟩ := coreTurn_cases s
  · exact he
  · cases c <;> simp [CoreStep.enabled, h] at hc

/-- Below 32 rounds, a core turn of an operation is a round (R241, R244). -/
theorem coreTurn_of_round (hst : s.st = .blkRun ∨ s.st = .sessRun) (hr : s.rnd < 32#6) : s.coreTurn = s.roundStep := by
  have hne : s.rnd ≠ 32#6 := by intro h; rw [h] at hr; exact absurd hr (by decide)
  obtain ⟨_, he⟩ | ⟨_, he⟩ | ⟨⟨_, h⟩, _⟩ | ⟨⟨h, _⟩, _⟩ | ⟨⟨_, h, _⟩, _⟩ | ⟨⟨h, _⟩, _⟩ := coreTurn_spec s
  · obtain h | h := hst
    · have := he .blkRound; rw [(blkRound_enabled_iff s).mpr ⟨h, hr⟩] at this; cases this
    · have := he .sessRound; rw [(sessRound_enabled_iff s).mpr ⟨h, hr⟩] at this; cases this
  · exact he
  · exact absurd h hne
  · rw [h] at hst; simp at hst
  · exact absurd h hne
  · rw [h] at hst; simp at hst

/-- After 32 rounds of a session block, with OBUF empty, a core turn emits (R247). -/
theorem coreTurn_of_emit (hst : s.st = .sessRun) (hr : s.rnd = 32#6) (ho : s.ocnt = 0#4) : s.coreTurn = s.emitOutput := by
  obtain ⟨_, he⟩ | ⟨⟨_, h⟩, _⟩ | ⟨⟨h, _⟩, _⟩ | ⟨⟨h, _⟩, _⟩ | ⟨_, he⟩ | ⟨⟨h, _⟩, _⟩ := coreTurn_spec s
  · have := he .sessEmit; rw [(sessEmit_enabled_iff s).mpr ⟨hst, hr, ho⟩] at this; cases this
  · rw [hr] at h; exact absurd h (by decide)
  all_goals first | exact he | (rw [hst] at h; cases h)

/-- In a finished session with an empty packer, a core turn closes it (R248). -/
theorem coreTurn_of_close (hst : s.st = .sessWait) (hf : s.fin = true) (hp : s.pcnt = 0#4) : s.coreTurn = s.closeSession := by
  obtain ⟨_, he⟩ | ⟨⟨h, _⟩, _⟩ | ⟨⟨h, _⟩, _⟩ | ⟨⟨_, h⟩, _⟩ | ⟨⟨h, _⟩, _⟩ | ⟨_, he⟩ := coreTurn_spec s
  · have := he .sessClose; rw [(sessClose_enabled_iff s).mpr ⟨hst, hf, hp⟩] at this; cases this
  · rw [hst] at h; simp at h
  · rw [hst] at h; cases h
  · rw [hp] at h; simp at h
  · rw [hst] at h; cases h
  · exact he

end Sys2Proof.Machine
end

