-- ==== Sys2Proof/Laws/Step.lean ====
section
/-! SUPPORT. What one step and one transaction can do, said once (46_sequencer.md R256; 30_encoding.md R82). -/

namespace Sys2Proof.Machine

variable (s : State)

theorem step_of_empty (h : s.inputs = []) : step s = .next s.coreTurn := by
  simp [step, h]

theorem step_of_core {rest : List Turn} (h : s.inputs = .core :: rest) : step s = .next (s.withInputs rest).coreTurn := by
  simp [step, h]

theorem step_of_host {t : Transaction} {rest : List Turn} (h : s.inputs = .host t :: rest) :
    step s = hostTransaction t (s.withInputs rest) := by
  simp [step, h]

theorem step_of_reset {rest : List Turn} (h : s.inputs = .reset :: rest) : step s = .next (s.withInputs rest).afterReset := by
  simp [step, h]

theorem step_of_foreign {rest : List Turn} (h : s.inputs = .foreign :: rest) : step s = .refused .outsideFormat := by
  simp [step, h]

/-- When the core moves next, the step is a core turn on the rest of the schedule. -/
theorem step_of_coreNext {rest : List Turn} (h : s.coreNext rest) : step s = .next (s.withInputs rest).coreTurn := by
  obtain h | ⟨h, rfl⟩ := h
  · exact step_of_core s h
  · have : s.withInputs [] = s := by rw [← h]; rfl
    rw [this]; exact step_of_empty s h

/-- A step that answers a next state was a core turn, a transaction or a reset. -/
theorem step_cases {s t : State} (h : step s = .next t) :
    (∃ rest, s.coreNext rest ∧ t = (s.withInputs rest).coreTurn) ∨
    (∃ w rest, s.inputs = .host w :: rest ∧ hostTransaction w (s.withInputs rest) = .next t) ∨
    (∃ rest, s.inputs = .reset :: rest ∧ t = (s.withInputs rest).afterReset) := by
  cases hi : s.inputs with
  | nil =>
    have hn : s.coreNext [] := .inr ⟨hi, rfl⟩
    rw [step_of_coreNext s hn] at h
    exact .inl ⟨[], hn, by injection h with h; exact h.symm⟩
  | cons u rest =>
    cases u with
    | core => rw [step_of_core s hi] at h; exact .inl ⟨rest, .inl hi, by injection h with h; exact h.symm⟩
    | host w => rw [step_of_host s hi] at h; exact .inr (.inl ⟨w, rest, rfl, h⟩)
    | reset => rw [step_of_reset s hi] at h; exact .inr (.inr ⟨rest, rfl, by injection h with h; exact h.symm⟩)
    | foreign => rw [step_of_foreign s hi] at h; cases h

/-- A transaction executes the row it decodes to, or records why it selects none. -/
theorem hostTransaction_cases (w : Transaction) :
    (∃ i, decode w = .ok i ∧ hostTransaction w s = exec i s) ∨
    (∃ why, decode w = .error why ∧ hostTransaction w s = .next (s.reject why w.isWrite)) := by
  cases h : decode w with
  | ok i => exact .inl ⟨i, rfl, by simp [hostTransaction, h]⟩
  | error why => exact .inr ⟨why, rfl, by simp [hostTransaction, h]⟩

theorem hostTransaction_of_ok {w : Transaction} {i : Instr} (h : decode w = .ok i) : hostTransaction w s = exec i s := by
  simp [hostTransaction, h]

theorem hostTransaction_of_error {w : Transaction} {why : Reject} (h : decode w = .error why) :
    hostTransaction w s = .next (s.reject why w.isWrite) := by
  simp [hostTransaction, h]

/-- Induction on runs, once: what reset has, what no choice of turns changes, and what every step keeps, every reachable state has. -/
theorem reachable_induct {P : State → Prop} (h0 : P State.reset) (hf : ∀ s us, P s → P (s.withInputs us))
    (hs : ∀ s t, P s → step s = .next t → P t) {s : State} (h : Reachable s) : P s := by
  induction h with
  | reset => exact h0
  | feed us _ ih => exact hf _ us ih
  | step _ hst ih => exact hs _ _ ih hst

/-- A run of one more step. -/
theorem run_succ (n : Nat) {s t : State} (h : step s = .next t) : core.run (n + 1) s = core.run n t := by
  have h' : core.step s = .next t := h
  simp only [Host.Core.run, h']

theorem run_zero (s : State) : core.run 0 s = .next s := rfl

/-- A run cut in two. -/
theorem run_add (m n : Nat) {s t : State} (h : core.run m s = .next t) : core.run (m + n) s = core.run n t := by
  induction m generalizing s with
  | zero => rw [run_zero] at h; injection h with h; rw [h, Nat.zero_add]
  | succ m ih =>
    cases hs : step s with
    | next u => rw [run_succ _ hs] at h; rw [Nat.add_right_comm, run_succ _ hs]; exact ih h
    | fault r => cases r
    | refused r =>
      have h' : core.step s = .refused r := hs
      simp only [Host.Core.run, h'] at h; cases h

/-- A run with one step more at its end. -/
theorem run_snoc (n : Nat) {s t u : State} (h : core.run n s = .next t) (h' : step t = .next u) : core.run (n + 1) s = .next u := by
  rw [run_add n 1 h, run_succ 0 h', run_zero]

/-- A core turn extends a session's trace; it accepts and reads out nothing. -/
theorem SessionTrace.core {s0 s : State} {din out dout : List Byte} (h : SessionTrace s0 s din out dout) (hs : s.session = true) :
    SessionTrace s0 (s.withInputs []).coreTurn din (out ++ emittedBytes .core s (s.withInputs []).coreTurn) dout := by
  have := SessionTrace.turn .core h hs rfl (step_of_core (s.withInputs [.core]) rfl)
  simpa [acceptedByte, poppedByte] using this

/-- The rounds of a session block extend its trace and touch neither the packer, the flags nor OBUF (R244). -/
theorem SessionTrace.rounds {s0 s : State} {din out dout : List Byte} (h : SessionTrace s0 s din out dout) (n : Nat) (hst : s.st = .sessRun)
    (hr : s.rnd.toNat + n ≤ 32) :
    ∃ t, SessionTrace s0 t din out dout ∧ t.st = .sessRun ∧ t.rnd.toNat = s.rnd.toNat + n ∧ t.fin = s.fin ∧ t.pcnt = s.pcnt ∧ t.ocnt = s.ocnt := by
  induction n with
  | zero => exact ⟨s, h, hst, rfl, rfl, rfl, rfl⟩
  | succ n ih =>
    obtain ⟨t, ht, h1, h2, h3, h4, h5⟩ := ih (by omega)
    have hlt : t.rnd < 32#6 := by bv_omega
    have hne : t.rnd ≠ 32#6 := by bv_omega
    have hc := ht.core (by simp [State.session, h1])
    rw [coreTurn_of_round (t.withInputs []) (.inr h1) hlt] at hc
    have he : CoreStep.sessEmit.enabled t = false := by simp [CoreStep.enabled, hne]
    simp only [emittedBytes, he, Bool.false_eq_true, if_false, List.append_nil] at hc
    refine ⟨_, hc, h1, ?_, h3, h4, h5⟩
    show (t.rnd + 1).toNat = _
    bv_omega

/-- SESS_EMIT extends a session's trace by the bytes of OBUF (R247). -/
theorem SessionTrace.emit {s0 s : State} {din out dout : List Byte} (h : SessionTrace s0 s din out dout) (hst : s.st = .sessRun)
    (hr : s.rnd = 32#6) (ho : s.ocnt = 0#4) :
    ∃ t, SessionTrace s0 t din (out ++ t.obuf.toList) dout ∧ t = (s.withInputs []).emitOutput := by
  have hc := h.core (by simp [State.session, hst])
  have he : CoreStep.sessEmit.enabled s = true := (sessEmit_enabled_iff s).mpr ⟨hst, hr, ho⟩
  have ht : (s.withInputs []).coreTurn = (s.withInputs []).emitOutput := coreTurn_of_emit _ hst hr ho
  simp only [emittedBytes, he, if_true] at hc
  rw [ht] at hc
  exact ⟨_, hc, rfl⟩

/-- SESS_CLOSE ends a session's trace (R248). -/
theorem SessionTrace.close {s0 s : State} {din out dout : List Byte} (h : SessionTrace s0 s din out dout)
    (hst : s.st = .sessWait) (hf : s.fin = true) (hp : s.pcnt = 0#4) : SessionTrace s0 (s.withInputs []).closeSession din out dout := by
  have hc := h.core (by simp [State.session, hst])
  have hn : CoreStep.sessEmit.enabled s = false := by simp [CoreStep.enabled, hst]
  have ht : (s.withInputs []).coreTurn = (s.withInputs []).closeSession := coreTurn_of_close _ hst hf hp
  simp only [emittedBytes, hn, Bool.false_eq_true, if_false, List.append_nil] at hc
  rw [ht] at hc
  exact hc

end Sys2Proof.Machine
end

