-- ==== Sys2Proof/Laws/Exec.lean ====
section
/-! SUPPORT. Everything an instruction can do, said once: from the answer of `exec` to the one effect it had and the conditions it had it
under (44_host_registers.md section 2; 45_commands.md). Proofs about steps take this apart instead of unfolding the meanings. -/

namespace Sys2Proof.Machine

/-- The effects of an instruction `i` from `s`, each with what it needs. -/
inductive Effect (s : State) : Instr → State → Prop where
  /-- a read without a side effect -/
  | answer {i : Instr} (v : Word) : i ≠ .rdDout → (encode i).isWrite = false → Effect s i (s.answer v)
  /-- a DOUT read of an empty buffer (R197) -/
  | underrun : s.ocnt = 0#4 → Effect s .rdDout ((s.raise .underrun).answer 0)
  /-- a DOUT read (R197) -/
  | pop : s.ocnt ≠ 0#4 → Effect s .rdDout (s.popByte.answer (zextByte s.nextOut))
  /-- CTRL, in every state (R184) -/
  | ctrl (d : Word) : Effect s (.wrCtrl d) (s.putCtrl d)
  /-- the locked writes in IDLE (R191) -/
  | key0 (d : Word) : s.st = .idle → Effect s (.wrKey0 d) (s.putKey0 d)
  | key1 (d : Word) : s.st = .idle → Effect s (.wrKey1 d) (s.putKey1 d)
  | key2 (d : Word) : s.st = .idle → Effect s (.wrKey2 d) (s.putKey2 d)
  | key3 (d : Word) : s.st = .idle → Effect s (.wrKey3 d) (s.putKey3 d)
  | ivL (d : Word) : s.st = .idle → Effect s (.wrIvL d) (s.putIvL d)
  | ivR (d : Word) : s.st = .idle → Effect s (.wrIvR d) (s.putIvR d)
  | blkL (d : Word) : s.st = .idle → Effect s (.wrBlkL d) (s.putBlkL d)
  | blkR (d : Word) : s.st = .idle → Effect s (.wrBlkR d) (s.putBlkR d)
  /-- a write or command refused, other than ABORT, CLRSTAT and NOP (R191, R196, R221 to R225) -/
  | refuse {i : Instr} (c : ErrCode) : c ≠ .none → i ≠ .abort → i ≠ .clrstat → (encode i).isWrite = true →
      (∀ d, i = .wrDin d → ¬ s.acceptsPush) → Effect s i (s.raise c)
  /-- a DIN write accepted (R196) -/
  | push (d : Word) : s.acceptsPush → Effect s (.wrDin d) (s.pushByte (byteOperand d))
  /-- NOP (R223) -/
  | nop : Effect s .nop s
  /-- a block command accepted (R221, R222) -/
  | encBlock : s.st = .idle → s.keyOk = 0b1111#4 → Effect s .encBlock (s.beginBlock .enc)
  | decBlock : s.st = .idle → s.keyOk = 0b1111#4 → Effect s .decBlock (s.beginBlock .dec)
  /-- START accepted (R224) -/
  | start : s.acceptsStart → Effect s .start s.openSession
  /-- FINISH accepted (R225) -/
  | finish : s.session = true → Effect s .finish s.endInput
  /-- ABORT (R226) -/
  | abort : Effect s .abort s.abortWork
  /-- CLRSTAT (R227) -/
  | clrstat : Effect s .clrstat s.clearStatus

variable (s : State)

/-- The eight locked writes: the write in IDLE, and WRITE_LOCKED otherwise (R191). -/
theorem effect_of_locked {s u : State} {i : Instr} (hw : (encode i).isWrite = true) (ha : i ≠ .abort) (hc : i ≠ .clrstat)
    (hd : ∀ d, i ≠ .wrDin d) (h : s.st = .idle → Effect s i u) : Effect s i (s.lockedWrite u) := by
  obtain ⟨hi, he⟩ | ⟨_, he⟩ := lockedWrite_cases s u
  · rw [he]; exact h hi
  · rw [he]; exact .refuse _ (by decide) ha hc hw fun d h => absurd h (hd d)

/-- A block command, in a direction (R221, R222). -/
theorem effect_of_blockCommand {s : State} {i : Instr} {d : Dir} (hw : (encode i).isWrite = true) (ha : i ≠ .abort) (hc : i ≠ .clrstat)
    (hd : ∀ d, i ≠ .wrDin d) (h : s.st = .idle → s.keyOk = 0b1111#4 → Effect s i (s.beginBlock d)) : Effect s i (s.blockCommand d) := by
  obtain ⟨_, he⟩ | ⟨_, _, he⟩ | ⟨h1, h2, he⟩ := blockCommand_cases s d
  · rw [he]; exact .refuse _ (by decide) ha hc hw fun d h => absurd h (hd d)
  · rw [he]; exact .refuse _ (by decide) ha hc hw fun d h => absurd h (hd d)
  · rw [he]; exact h h1 h2

/-- What `exec` answers is one of the effects. -/
theorem exec_effect {i : Instr} {t : State} (h : exec i s = .next t) : Effect s i t := by
  cases i with
  | wrCtrl d => injection h with h; subst h; exact .ctrl d
  | wrKey0 d => injection h with h; subst h; exact effect_of_locked (assemble_isWrite ..) nofun nofun nofun (.key0 d)
  | wrKey1 d => injection h with h; subst h; exact effect_of_locked (assemble_isWrite ..) nofun nofun nofun (.key1 d)
  | wrKey2 d => injection h with h; subst h; exact effect_of_locked (assemble_isWrite ..) nofun nofun nofun (.key2 d)
  | wrKey3 d => injection h with h; subst h; exact effect_of_locked (assemble_isWrite ..) nofun nofun nofun (.key3 d)
  | wrIvL d => injection h with h; subst h; exact effect_of_locked (assemble_isWrite ..) nofun nofun nofun (.ivL d)
  | wrIvR d => injection h with h; subst h; exact effect_of_locked (assemble_isWrite ..) nofun nofun nofun (.ivR d)
  | wrBlkL d => injection h with h; subst h; exact effect_of_locked (assemble_isWrite ..) nofun nofun nofun (.blkL d)
  | wrBlkR d => injection h with h; subst h; exact effect_of_locked (assemble_isWrite ..) nofun nofun nofun (.blkR d)
  | rdDout =>
    simp only [exec, execRdDout] at h
    split at h <;> injection h with h <;> subst h
    · exact .underrun ‹_›
    · exact .pop ‹_›
  | wrDin d =>
    simp only [exec, execWrDin] at h
    split at h
    · injection h with h; subst h
      exact .refuse _ (by decide) nofun nofun (assemble_isWrite ..) fun _ _ ha => by simp_all
    · split at h
      · injection h with h; subst h
        exact .refuse _ (by decide) nofun nofun (assemble_isWrite ..) fun _ _ ha => by simp_all
      · split at h
        · injection h with h; subst h
          exact .refuse _ (by decide) nofun nofun (assemble_isWrite ..) fun _ _ ha => by simp_all
        · injection h with h; subst h
          exact .push d (by simp_all [State.acceptsPush])
  | nop => injection h with h; subst h; exact .nop
  | encBlock => injection h with h; subst h; exact effect_of_blockCommand (assemble_isWrite ..) nofun nofun nofun .encBlock
  | decBlock => injection h with h; subst h; exact effect_of_blockCommand (assemble_isWrite ..) nofun nofun nofun .decBlock
  | start =>
    simp only [exec, execStart] at h
    split at h
    · injection h with h; subst h; exact .refuse _ (by decide) nofun nofun (assemble_isWrite ..) nofun
    · split at h
      · injection h with h; subst h; exact .refuse _ (by decide) nofun nofun (assemble_isWrite ..) nofun
      · split at h
        · injection h with h; subst h; exact .refuse _ (by decide) nofun nofun (assemble_isWrite ..) nofun
        · split at h
          · injection h with h; subst h; exact .refuse _ (by decide) nofun nofun (assemble_isWrite ..) nofun
          · injection h with h; subst h; exact .start (by simp_all [State.acceptsStart])
  | finish =>
    simp only [exec, execFinish] at h
    split at h
    · injection h with h; subst h; exact .refuse _ (by decide) nofun nofun (assemble_isWrite ..) nofun
    · injection h with h; subst h; exact .finish (by simp_all)
  | abort => injection h with h; subst h; exact .abort
  | clrstat => injection h with h; subst h; exact .clrstat
  | _ => injection h with h; subst h; exact .answer _ nofun (assemble_isWrite ..)

/-- A transaction that ends in a next state had the effect of the instruction it decodes to, or recorded why it selects none. -/
theorem hostTransaction_effect {w : Transaction} {t : State} (h : hostTransaction w s = .next t) :
    (∃ i, decode w = .ok i ∧ Effect s i t) ∨ (∃ why, decode w = .error why ∧ t = s.reject why w.isWrite) := by
  obtain ⟨i, hi, he⟩ | ⟨why, hi, he⟩ := hostTransaction_cases s w
  · exact .inl ⟨i, hi, exec_effect s (he ▸ h)⟩
  · rw [he] at h; injection h with h; exact .inr ⟨why, hi, h.symm⟩

end Sys2Proof.Machine
end

