-- ==== Sys2Proof/Laws/Hosted.lean ====
section
/-! SUPPORT. What a move of the block with its host program can do (Machine/Hosted.lean), said once. -/

namespace Sys2Proof.Machine

variable (h : Hosted)

/-- The transaction of a poll is the STATUS read. -/
@[simp] theorem poll_transaction (c : WaitLoop) : (HostOp.poll c).transaction = encode .rdStatus := rfl

@[simp] theorem issue_transaction (t : Transaction) : (HostOp.issue t).transaction = t := rfl

@[simp] theorem issue_ends (t : Transaction) (v : Option Word) : (HostOp.issue t).ends v = true := rfl

@[simp] theorem poll_ends (c : WaitLoop) (v : Word) : (HostOp.poll c).ends (some v) = c.ends v := rfl

/-- When a wait loop ends, as a condition on the state whose STATUS it polls (R91, R24). -/
theorem ends_statusWord (c : WaitLoop) (s : State) : c.ends s.statusWord =
    match c with
    | .idle     => !s.busy
    | .done     => s.done
    | .inReady  => s.inReady
    | .outValid => s.outValid
    | .closed   => !s.session := by
  cases c <;> simp only [WaitLoop.ends, statusWord_getLsbD] <;> simp

/-- The core's move is its turn; the program stays. -/
theorem move_core : h.move .core = .next ⟨(h.dev.withInputs []).coreTurn, h.program⟩ := by
  rw [Hosted.move, step_of_core (h.dev.withInputs [.core]) rfl]; rfl

/-- A program that has ended moves nothing. -/
theorem move_host_of_ended (hp : h.program = []) : h.move .host = .next h := by
  rw [Hosted.move, hp]

/-- One round of a wait loop: STATUS is read, and the loop is left where the word ends it. -/
theorem move_host_of_poll {c : WaitLoop} {rest : List HostOp} (hp : h.program = .poll c :: rest) :
    h.move .host = .next ⟨(h.dev.withInputs []).answer h.dev.statusWord, if c.ends h.dev.statusWord then rest else .poll c :: rest⟩ := by
  have hd : decode (encode .rdStatus) = .ok .rdStatus := by decide
  have hs : step (h.dev.withInputs [.host (encode .rdStatus)]) = .next ((h.dev.withInputs []).answer h.dev.statusWord) := by
    rw [step_of_host (h.dev.withInputs [.host (encode .rdStatus)]) rfl, hostTransaction_of_ok _ hd]; rfl
  rw [Hosted.move, hp]
  simp only [poll_transaction, hs, Hosted.lift]
  rfl

/-- An issued transaction is performed, and the program goes on. -/
theorem move_host_of_issue {w : Transaction} {rest : List HostOp} (hp : h.program = .issue w :: rest) :
    h.move .host = Hosted.lift (fun _ => rest) (hostTransaction w (h.dev.withInputs [])) := by
  rw [Hosted.move, hp]
  simp only [issue_transaction, issue_ends, if_true]
  rw [step_of_host (h.dev.withInputs [.host w]) rfl]
  rfl

/-- The outcome of a lifted step is a next state only where the step's is. -/
theorem lift_eq_next {f : State → List HostOp} {o : Host.Outcome State Fault Refusal} {h' : Hosted} (e : Hosted.lift f o = .next h') :
    ∃ s, o = .next s ∧ h' = ⟨s, f s⟩ := by
  cases o with
  | next s => injection e with e; exact ⟨s, rfl, e.symm⟩
  | fault r => cases e
  | refused r => cases e

/-- Everything a move that answers a next state can do. -/
theorem move_cases {h h' : Hosted} {a : Agent} (e : h.move a = .next h') :
    (a = .core ∧ h' = ⟨(h.dev.withInputs []).coreTurn, h.program⟩) ∨
    (a = .host ∧ h.program = [] ∧ h' = h) ∨
    (a = .host ∧ ∃ c rest, h.program = .poll c :: rest ∧
      h' = ⟨(h.dev.withInputs []).answer h.dev.statusWord, if c.ends h.dev.statusWord then rest else .poll c :: rest⟩) ∨
    (a = .host ∧ ∃ w rest s, h.program = .issue w :: rest ∧ hostTransaction w (h.dev.withInputs []) = .next s ∧ h' = ⟨s, rest⟩) := by
  cases a with
  | core => rw [move_core] at e; injection e with e; exact .inl ⟨rfl, e.symm⟩
  | host =>
    match hp : h.program with
    | [] => rw [move_host_of_ended h hp] at e; injection e with e; exact .inr (.inl ⟨rfl, rfl, e.symm⟩)
    | .poll c :: rest =>
      rw [move_host_of_poll h hp] at e; injection e with e; exact .inr (.inr (.inl ⟨rfl, c, rest, rfl, e.symm⟩))
    | .issue w :: rest =>
      rw [move_host_of_issue h hp] at e
      obtain ⟨s, hs, rfl⟩ := lift_eq_next e
      exact .inr (.inr (.inr ⟨rfl, w, rest, s, rfl, hs, rfl⟩))

/-- A push is a DIN write of its byte (R90). -/
theorem hostTransaction_push (x : Byte) (s : State) :
    hostTransaction (pushTransaction x) s = execWrDin (BitVec.setWidth 32 x) s :=
  hostTransaction_of_ok s (i := .wrDin (BitVec.setWidth 32 x)) ((decode_assemble true .din _).trans rfl)

/-- Induction along a run, once: what its first state has and every move of the run keeps, every state of the run has. -/
theorem run_induct {P : Hosted → Prop} {r : Nat → Hosted} {a : Nat → Agent} (hr : Hosted.isRun r a) {n : Nat} (h0 : P (r n))
    (hs : ∀ m, n ≤ m → P (r m) → ∀ h' : Hosted, (r m).move (a m) = .next h' → P h') : ∀ m, n ≤ m → P (r m) := by
  intro m hm
  induction m, hm using Nat.le_induction with
  | base => exact h0
  | succ m hm ih => exact hs m hm ih _ (hr m)

end Sys2Proof.Machine
end

