-- ==== Sys2Proof/Laws/PerInstr.lean ====
section
/-! SUPPORT. Statements made for every instruction, one lemma per constructor. EncodeLegal: the word of an instruction passes every check of
30_encoding.md R86. -/

namespace Sys2Proof.Laws.EncodeLegal

/-- The word of `i` is a legal transaction. -/
def Statement (i : Instr) : Prop := (encode i).wf = true

/-- The checks of an assembled word, from its fields. -/
theorem assemble_legal (w : Bool) (r : Reg) (d : Word)
    (hro : ¬ (w = true ∧ isReadOnly r.offset = true)) (hcmd : w = true → r = .cmd → d.toNat ≤ 0x6) :
    (assemble w r d).wf = true := by
  simp only [Transaction.wf, Transaction.aligned, Transaction.mapped, Transaction.writable, Transaction.commandDefined,
    Transaction.offset_eq_addr, Transaction.dataNat_eq_wdata, Transaction.writes_eq_isWrite, assemble_isWrite, assemble_addr,
    assemble_wdata]
  cases w <;> cases r <;> simp_all [Reg.offset, isReadOnly]

theorem rdId : Statement .rdId := assemble_legal _ _ _ (by simp [Reg.offset, isReadOnly]) (by simp)
theorem rdCtrl : Statement .rdCtrl := assemble_legal _ _ _ (by simp [Reg.offset, isReadOnly]) (by simp)
theorem rdCmd : Statement .rdCmd := assemble_legal _ _ _ (by simp [Reg.offset, isReadOnly]) (by simp)
theorem rdStatus : Statement .rdStatus := assemble_legal _ _ _ (by simp [Reg.offset, isReadOnly]) (by simp)
theorem rdKey0 : Statement .rdKey0 := assemble_legal _ _ _ (by simp [Reg.offset, isReadOnly]) (by simp)
theorem rdKey1 : Statement .rdKey1 := assemble_legal _ _ _ (by simp [Reg.offset, isReadOnly]) (by simp)
theorem rdKey2 : Statement .rdKey2 := assemble_legal _ _ _ (by simp [Reg.offset, isReadOnly]) (by simp)
theorem rdKey3 : Statement .rdKey3 := assemble_legal _ _ _ (by simp [Reg.offset, isReadOnly]) (by simp)
theorem rdIvL : Statement .rdIvL := assemble_legal _ _ _ (by simp [Reg.offset, isReadOnly]) (by simp)
theorem rdIvR : Statement .rdIvR := assemble_legal _ _ _ (by simp [Reg.offset, isReadOnly]) (by simp)
theorem rdBlkL : Statement .rdBlkL := assemble_legal _ _ _ (by simp [Reg.offset, isReadOnly]) (by simp)
theorem rdBlkR : Statement .rdBlkR := assemble_legal _ _ _ (by simp [Reg.offset, isReadOnly]) (by simp)
theorem rdDin : Statement .rdDin := assemble_legal _ _ _ (by simp [Reg.offset, isReadOnly]) (by simp)
theorem rdDout : Statement .rdDout := assemble_legal _ _ _ (by simp [Reg.offset, isReadOnly]) (by simp)
theorem rdLen : Statement .rdLen := assemble_legal _ _ _ (by simp [Reg.offset, isReadOnly]) (by simp)
theorem rdNblk : Statement .rdNblk := assemble_legal _ _ _ (by simp [Reg.offset, isReadOnly]) (by simp)
theorem rdChainL : Statement .rdChainL := assemble_legal _ _ _ (by simp [Reg.offset, isReadOnly]) (by simp)
theorem rdChainR : Statement .rdChainR := assemble_legal _ _ _ (by simp [Reg.offset, isReadOnly]) (by simp)
theorem wrCtrl (d : Word) : Statement (.wrCtrl d) := assemble_legal _ _ _ (by simp [Reg.offset, isReadOnly]) (by simp)
theorem wrKey0 (d : Word) : Statement (.wrKey0 d) := assemble_legal _ _ _ (by simp [Reg.offset, isReadOnly]) (by simp)
theorem wrKey1 (d : Word) : Statement (.wrKey1 d) := assemble_legal _ _ _ (by simp [Reg.offset, isReadOnly]) (by simp)
theorem wrKey2 (d : Word) : Statement (.wrKey2 d) := assemble_legal _ _ _ (by simp [Reg.offset, isReadOnly]) (by simp)
theorem wrKey3 (d : Word) : Statement (.wrKey3 d) := assemble_legal _ _ _ (by simp [Reg.offset, isReadOnly]) (by simp)
theorem wrIvL (d : Word) : Statement (.wrIvL d) := assemble_legal _ _ _ (by simp [Reg.offset, isReadOnly]) (by simp)
theorem wrIvR (d : Word) : Statement (.wrIvR d) := assemble_legal _ _ _ (by simp [Reg.offset, isReadOnly]) (by simp)
theorem wrBlkL (d : Word) : Statement (.wrBlkL d) := assemble_legal _ _ _ (by simp [Reg.offset, isReadOnly]) (by simp)
theorem wrBlkR (d : Word) : Statement (.wrBlkR d) := assemble_legal _ _ _ (by simp [Reg.offset, isReadOnly]) (by simp)
theorem wrDin (d : Word) : Statement (.wrDin d) := assemble_legal _ _ _ (by simp [Reg.offset, isReadOnly]) (by simp)
theorem nop : Statement .nop := assemble_legal _ _ _ (by simp [Reg.offset, isReadOnly]) (by simp)
theorem encBlock : Statement .encBlock := assemble_legal _ _ _ (by simp [Reg.offset, isReadOnly]) (by simp)
theorem decBlock : Statement .decBlock := assemble_legal _ _ _ (by simp [Reg.offset, isReadOnly]) (by simp)
theorem start : Statement .start := assemble_legal _ _ _ (by simp [Reg.offset, isReadOnly]) (by simp)
theorem finish : Statement .finish := assemble_legal _ _ _ (by simp [Reg.offset, isReadOnly]) (by simp)
theorem abort : Statement .abort := assemble_legal _ _ _ (by simp [Reg.offset, isReadOnly]) (by simp)
theorem clrstat : Statement .clrstat := assemble_legal _ _ _ (by simp [Reg.offset, isReadOnly]) (by simp)

end Sys2Proof.Laws.EncodeLegal
end

