-- ==== Sys2Proof/Tests/Slice0.lean ====
section
/-! SUPPORT. The model's own tests. Expected values come from 95_test_vectors.md (the vector is named) or are written out from the spec's
encoding tables; none was copied from the model's answer. Each test is one decode, one function value or one step on a small state.
The `witness_` theorems show, for each statement with hypotheses, a state and operands that meet them. -/

namespace Sys2Proof.Tests

open Sys2Proof Sys2Proof.Machine

/-! ## Small states -/

/-- The next state, if there is one. -/
def nextOf (o : Host.Outcome State Fault Refusal) : Option State :=
  match o with
  | .next s => some s
  | _       => none

/-- What a field is after one instruction. -/
def after {α : Type} (f : State → α) (i : Instr) (s : State) : Option α := (nextOf (exec i s)).map f

/-- What a field is after one step with the turn `u` scheduled. -/
def afterTurn {α : Type} (f : State → α) (u : Turn) (s : State) : Option α := (nextOf (step (s.withInputs [u]))).map f

/-- The key loaded (all zero), nothing else (V-H3). -/
def keyed : State := { State.reset with keyOk := 0b1111#4 }

/-- An operation in the block datapath: ENC_BLOCK just accepted (V-H8). -/
def blockRunning : State := { keyed with st := .blkRun }

/-- A session just opened (V-H9). -/
def waiting : State := { keyed with st := .sessWait }

/-- A session with `n` bytes packed, all zero. -/
def packed (n : BitVec 4) : State := { waiting with pcnt := n, len := n.setWidth 32 }

/-- A session in its rounds. -/
def running (r : BitVec 6) : State := { waiting with st := .sessRun, rnd := r }

/-- OBUF filled with the bytes of (0x41EA3A0A, 0x94BAA940) (V-H14). -/
def filled (n : BitVec 4) : State := { State.reset with obuf := #v[0x41, 0xEA, 0x3A, 0x0A, 0x94, 0xBA, 0xA9, 0x40], ocnt := n }

/-! ## WellFormed: an ill-formed transaction for each check -/

theorem test_wf_accepts : Transaction.wf 0x00C00000000#41 = true ∧ Transaction.wf 0x10800000006#41 = true ∧ Transaction.wf 0x14000000000#41 = false := by decide
theorem test_wf_aligned : Transaction.aligned 0x04A00000000#41 = false ∧ Transaction.wf 0x04A00000000#41 = false := by decide
theorem test_wf_mapped : Transaction.mapped 0x04800000000#41 = false ∧ Transaction.wf 0x04800000000#41 = false ∧ Transaction.mapped 0x04400000000#41 = true := by decide
theorem test_wf_writable : Transaction.writable 0x13800000001#41 = false ∧ Transaction.wf 0x13800000001#41 = false := by decide
theorem test_wf_command : Transaction.commandDefined 0x10800000007#41 = false ∧ Transaction.wf 0x10800000007#41 = false := by decide
theorem test_wf_command_rsv : Transaction.commandDefined 0x10800000013#41 = false ∧ Transaction.wf 0x10800000013#41 = false := by decide

/-! ## Decoding: words written out from R80's fields, W, ADDR and WDATA, and R85's offsets -/

theorem test_decode_reads :
    [0x00, 0x04, 0x08, 0x0C, 0x10, 0x14, 0x18, 0x1C, 0x20, 0x24, 0x28, 0x2C, 0x30, 0x34, 0x38, 0x3C, 0x40, 0x44].map
        (fun a : BitVec 8 => decode (0b0#1 ++ a ++ 0x00000000#32)) =
      [.ok .rdId, .ok .rdCtrl, .ok .rdCmd, .ok .rdStatus, .ok .rdKey0, .ok .rdKey1, .ok .rdKey2, .ok .rdKey3, .ok .rdIvL, .ok .rdIvR,
       .ok .rdBlkL, .ok .rdBlkR, .ok .rdDin, .ok .rdDout, .ok .rdLen, .ok .rdNblk, .ok .rdChainL, .ok .rdChainR] := by decide
theorem test_decode_read_ignores_wdata : decode 0x0345A5A5A5A#41 = .ok .rdDout := by decide
theorem test_decode_writes :
    [0x04, 0x10, 0x14, 0x18, 0x1C, 0x20, 0x24, 0x28, 0x2C, 0x30].map (fun a : BitVec 8 => decode (0b1#1 ++ a ++ 0x89ABCDEF#32)) =
      [.ok (.wrCtrl 0x89ABCDEF), .ok (.wrKey0 0x89ABCDEF), .ok (.wrKey1 0x89ABCDEF), .ok (.wrKey2 0x89ABCDEF), .ok (.wrKey3 0x89ABCDEF),
       .ok (.wrIvL 0x89ABCDEF), .ok (.wrIvR 0x89ABCDEF), .ok (.wrBlkL 0x89ABCDEF), .ok (.wrBlkR 0x89ABCDEF), .ok (.wrDin 0x89ABCDEF)] := by
  decide
theorem test_decode_commands :
    [0x0, 0x1, 0x2, 0x3, 0x4, 0x5, 0x6].map (fun op : BitVec 4 => decode (0b1#1 ++ 0b00001000#8 ++ 0x0000000#28 ++ op)) =
      [.ok .nop, .ok .encBlock, .ok .decBlock, .ok .start, .ok .finish, .ok .abort, .ok .clrstat] := by decide
/-- P1 to P5 of 95_test_vectors.md. -/
theorem test_decode_programs :
    decode 0x11C0C0D0E0F#41 = .ok (.wrKey3 0x0C0D0E0F) ∧ decode 0x12405060708#41 = .ok (.wrIvR 0x05060708) ∧
    decode 0x12C00000000#41 = .ok (.wrBlkR 0) ∧ decode 0x10400000005#41 = .ok (.wrCtrl 5) ∧ decode 0x13000000048#41 = .ok (.wrDin 0x48) ∧
    decode 0x10800000003#41 = .ok .start ∧ decode 0x04000000000#41 = .ok .rdChainL ∧ decode 0x02800000000#41 = .ok .rdBlkL := by decide
theorem test_decode_rejects :
    decode 0x04A00000000#41 = .error .badAccess ∧ decode 0x14800000000#41 = .error .badAccess ∧ decode 0x13800000001#41 = .error .badAccess ∧
    decode 0x10C00000000#41 = .error .badAccess ∧ decode 0x10800000007#41 = .error .illegalCmd ∧ decode 0x1080000000F#41 = .error .illegalCmd ∧
    decode 0x10800000013#41 = .error .illegalCmd := by decide
/-- The host's questions: the table's numbering, and a step that runs the word after reset. -/
theorem test_table_word : decodeTableWord 48 0x11489ABCDEF = some (.wrKey1 0x89ABCDEF) ∧ decodeTableWord 48 0x10800000007 = none := by decide
theorem test_fetch_word : (nextOf (step (State.reset.withFetchWord 48 0x00000000000))).map State.rdata = some (some 0x54454131) := by decide

/-! ## The datapath -/

/-- V-A1 to V-A13. -/
theorem test_arith :
    add32 0xFFFFFFFF 0x00000001 = 0 ∧ add32 0x9E3779B9 0x9E3779B9 = 0x3C6EF372 ∧ sub32 0 1 = 0xFFFFFFFF ∧
    shl32 0x12345678 4 = 0x23456780 ∧ shl32 0x9E3779B9 5 = 0xC6EF3720 ∧ shr32 0xFFFFFFFF 5 = 0x07FFFFFF ∧ shr32 0x80000000 5 = 0x04000000 ∧
    xor32 0xFFFFFFF0 0x9E3779B8 = 0x61C88648 := by decide
/-- V-A14. -/
theorem test_xorB : xorB ⟨0x01234567, 0x89ABCDEF⟩ ⟨0xFFFFFFFF, 0⟩ = ⟨0xFEDCBA98, 0x89ABCDEF⟩ := by decide
/-- V-F2, V-F3, V-F5. -/
theorem test_mixF :
    mixF 0xFFFFFFFF 0x9E3779B9 0 0 = 0x663779B7 ∧ mixF 0x12345678 0x9E3779B9 1 2 = 0x93BF1505 ∧
    mixF 0xFFFFFFFF 0 0xFFFFFFFF 0xFFFFFFFF = 0x07FFFFEE := by decide
/-- Section 2.4, rounds 2 and 3 of encryption. -/
theorem test_encRound :
    encRound ⟨0x9E3779B9, 0xDBE8D32F⟩ 0x9E3779B9 ⟨0, 0, 0, 0⟩ = (⟨0x3E3D2C81, 0x747811B6⟩, 0x3C6EF372) ∧
    encRound ⟨0x3E3D2C81, 0x747811B6⟩ 0x3C6EF372 ⟨0, 0, 0, 0⟩ = (⟨0x4979D18D, 0x266EFA9A⟩, 0xDAA66D2B) := by decide
/-- Section 2.4, rounds 1 and 2 of decryption; a model with the incoming R in step 2 fails here (C2). -/
theorem test_decRound :
    decRound ⟨0x41EA3A0A, 0x94BAA940⟩ 0xC6EF3720 ⟨0, 0, 0, 0⟩ = (⟨0xFA8572E9, 0x804528E6⟩, 0x28B7BD67) ∧
    decRound ⟨0xFA8572E9, 0x804528E6⟩ 0x28B7BD67 ⟨0, 0, 0, 0⟩ = (⟨0xD6B7B34F, 0xF386F38F⟩, 0x8A8043AE) := by decide
/-- V-T5. -/
theorem test_encryptBlock :
    encryptBlock ⟨0x41424344, 0x45464748⟩ ⟨0x00010203, 0x04050607, 0x08090A0B, 0x0C0D0E0F⟩ = ⟨0xDF25FC42, 0x79B8F929⟩ := by decide +kernel
/-- V-T13. -/
theorem test_decryptBlock : decryptBlock ⟨0x48692100, 0⟩ ⟨1, 2, 3, 4⟩ = ⟨0xE25E9504, 0xA264525C⟩ := by decide +kernel
/-- V-M4. -/
theorem test_cbcEncrypt :
    cbcEncrypt ⟨0x00010203, 0x04050607, 0x08090A0B, 0x0C0D0E0F⟩ [⟨0x41424344, 0x45464748⟩, ⟨0x494A0000, 0⟩] ⟨0x01020304, 0x05060708⟩ =
      [⟨0xBFC9DBF0, 0xD297397F⟩, ⟨0x2AF23DAD, 0x848ACB79⟩] := by decide +kernel
/-- The table of section 2.6. -/
theorem test_transfer_functions :
    modeIn .ecb .enc ⟨1, 2⟩ ⟨0x10, 0x20⟩ = ⟨1, 2⟩ ∧ modeIn .cbc .enc ⟨1, 2⟩ ⟨0x10, 0x20⟩ = ⟨0x11, 0x22⟩ ∧
    modeIn .cbc .dec ⟨1, 2⟩ ⟨0x10, 0x20⟩ = ⟨1, 2⟩ ∧ modeOut .cbc .enc ⟨5, 6⟩ ⟨0x10, 0x20⟩ = ⟨5, 6⟩ ∧
    modeOut .cbc .dec ⟨5, 6⟩ ⟨0x10, 0x20⟩ = ⟨0x15, 0x26⟩ ∧ chainNext .ecb .dec ⟨5, 6⟩ ⟨1, 2⟩ ⟨0x10, 0x20⟩ = ⟨0x10, 0x20⟩ ∧
    chainNext .cbc .enc ⟨5, 6⟩ ⟨1, 2⟩ ⟨0x10, 0x20⟩ = ⟨5, 6⟩ ∧ chainNext .cbc .dec ⟨5, 6⟩ ⟨1, 2⟩ ⟨0x10, 0x20⟩ = ⟨1, 2⟩ := by decide
/-- V-C1 to V-C3, V-C5, V-C7. -/
theorem test_codec :
    bytesToBlocks [] = ([], 0) ∧ bytesToBlocks [0x48, 0x69, 0x21] = ([⟨0x48692100, 0⟩], 3) ∧
    bytesToBlocks [1, 2, 3, 4, 5, 6, 7, 8, 9] = ([⟨0x01020304, 0x05060708⟩, ⟨0x09000000, 0⟩], 9) ∧
    blocksToBytes [⟨0x41EA3A0A, 0x94BAA940⟩] = [0x41, 0xEA, 0x3A, 0x0A, 0x94, 0xBA, 0xA9, 0x40] ∧ wordOfBytes 0x01 0 0 0 = 0x01000000 := by
  decide

/-! ## Reads -/

/-- V-H2, V-H7, V-H4. -/
theorem test_rdId : after State.rdata .rdId State.reset = some (some 0x54454131) := by decide
theorem test_rdCtrl : after State.rdata .rdCtrl { State.reset with ctrl := ⟨.ecb, .dec, true⟩ } = some (some 0x6) := by decide
theorem test_rdCmd : after State.rdata .rdCmd State.reset = some (some 0) := by decide
theorem test_rdKeys :
    [Instr.rdKey0, .rdKey1, .rdKey2, .rdKey3].map (fun i => after State.rdata i { keyed with key := ⟨1, 2, 3, 4⟩ }) =
      [some (some 0), some (some 0), some (some 0), some (some 0)] := by decide
theorem test_rdIv_rdBlk_rdChain :
    [Instr.rdIvL, .rdIvR, .rdBlkL, .rdBlkR, .rdChainL, .rdChainR, .rdLen, .rdNblk].map
        (fun i => after State.rdata i { State.reset with iv := ⟨1, 2⟩, blk := ⟨3, 4⟩, chain := ⟨5, 6⟩, len := 7, nblk := 8 }) =
      [some (some 1), some (some 2), some (some 3), some (some 4), some (some 5), some (some 6), some (some 7), some (some 8)] := by decide
theorem test_rdDin : after State.rdata .rdDin (packed 3#4) = some (some 0) ∧ after State.pcnt .rdDin (packed 3#4) = some 3#4 := by decide
/-- V-H8, V-H9, V-H10. -/
theorem test_rdStatus_busy :
    after State.rdata .rdStatus blockRunning = some (some 0x0000F001) ∧ after State.rdata .rdStatus waiting = some (some 0x0000F00A) ∧
    after State.rdata .rdStatus (packed 8#4) = some (some 0x0080F002) := by decide
/-- V-Q1 after the emit, V-H11, P4 line 4. -/
theorem test_rdStatus_done :
    after State.rdata .rdStatus { waiting with fin := true, ocnt := 8#4 } = some (some 0x0800F016) ∧
    after State.rdata .rdStatus { keyed with done := true, ocnt := 8#4 } = some (some 0x0800F030) ∧
    after State.rdata .rdStatus { keyed with ctrl := ⟨.cbc, .enc, true⟩, err := true, errCode := .ivMalformed } = some (some 0x0000F2C0) := by
  decide
/-- V-H14: the first and the last byte. -/
theorem test_rdDout :
    after State.rdata .rdDout (filled 8#4) = some (some 0x41) ∧ after State.rdata .rdDout (filled 1#4) = some (some 0x40) ∧
    after State.ocnt .rdDout (filled 8#4) = some 7#4 := by decide
/-- V-E8. -/
theorem test_rdDout_underrun :
    after State.statusWord .rdDout State.reset = some 0x00000840 ∧ after State.rdata .rdDout State.reset = some (some 0) := by decide

/-! ## Writes -/

/-- V-H6, V-H12. -/
theorem test_wrCtrl :
    after State.ctrl (.wrCtrl 0xFFFFFFFF) State.reset = some ⟨.cbc, .dec, true⟩ ∧ after State.statusWord (.wrCtrl 0x7) waiting = some 0x0000F00A := by
  decide
/-- V-H4, and the bit of each other key register. -/
theorem test_wrKeys :
    after State.statusWord (.wrKey0 0x01234567) State.reset = some 0x00001000 ∧ after State.statusWord (.wrKey1 1) State.reset = some 0x00002000 ∧
    after State.statusWord (.wrKey2 1) State.reset = some 0x00004000 ∧ after State.statusWord (.wrKey3 1) State.reset = some 0x00008000 := by
  decide
theorem test_wrKeys_store :
    after State.key (.wrKey1 9) keyed = some ⟨0, 9, 0, 0⟩ ∧ after State.key (.wrKey3 9) keyed = some ⟨0, 0, 0, 9⟩ := by decide
/-- V-E6b: WRITE_LOCKED, and KEY0 unchanged. -/
theorem test_wrKey0_locked :
    after State.statusWord (.wrKey0 5) blockRunning = some 0x0000F641 ∧ after State.key (.wrKey0 5) blockRunning = some ⟨0, 0, 0, 0⟩ := by decide
/-- V-H5. -/
theorem test_wrIv :
    after State.statusWord (.wrIvL 0x01234567) State.reset = some 0x00010000 ∧ after State.iv (.wrIvL 0x01234567) State.reset = some ⟨0x01234567, 0⟩ ∧
    after State.statusWord (.wrIvR 1) State.reset = some 0x00020000 := by decide
/-- V-E6. -/
theorem test_wrIvL_locked : after State.statusWord (.wrIvL 1) waiting = some 0x0000F64A := by decide
theorem test_wrBlk :
    after State.blk (.wrBlkL 7) State.reset = some ⟨7, 0⟩ ∧ after State.blk (.wrBlkR 7) State.reset = some ⟨0, 7⟩ ∧
    after State.blk (.wrBlkR 7) blockRunning = some ⟨0, 0⟩ := by decide
/-- A push at the last place of the packer; WDATA[31:8] is ignored (R83). -/
theorem test_wrDin :
    after (fun t => (t.pack[7], t.pcnt, t.len)) (.wrDin 0xABCDEF09) (packed 7#4) = some (0x09, 8#4, 8) := by decide
/-- V-E7, V-E10, V-E14. -/
theorem test_wrDin_refused :
    after State.statusWord (.wrDin 9) (packed 8#4) = some 0x0080F742 ∧
    after State.statusWord (.wrDin 1) { waiting with len := 0xFFFFFFFF } = some 0x0000FA4A ∧
    after State.statusWord (.wrDin 1) { packed 8#4 with fin := true } = some 0x0080F546 := by decide

/-! ## Commands -/

/-- V-E16. -/
theorem test_nop_abort_clrstat_raise_nothing :
    after State.err .nop waiting = some false ∧ after State.err .abort waiting = some false ∧ after State.err .clrstat waiting = some false := by
  decide
/-- V-E1, V-E4's state. -/
theorem test_encBlock :
    after State.statusWord .encBlock State.reset = some 0x00000140 ∧ after State.statusWord .encBlock keyed = some 0x0000F001 := by decide
theorem test_decBlock :
    after (fun t => (t.cdir, t.sum, t.w)) .decBlock { keyed with blk := ⟨1, 2⟩ } = some (.dec, 0xC6EF3720, ⟨1, 2⟩) := by decide
/-- V-E2, V-E4. -/
theorem test_start_refused :
    after State.statusWord .start { keyed with ctrl := ⟨.cbc, .enc, false⟩ } = some 0x0000F240 ∧
    after State.statusWord .start blockRunning = some 0x0000F441 := by decide
/-- V-E11, V-E13. -/
theorem test_start_priority :
    after State.statusWord .start { keyed with done := true, ocnt := 8#4 } = some 0x0800FB70 ∧
    after State.errCode .start { State.reset with ctrl := ⟨.cbc, .enc, false⟩ } = some .keyMalformed := by decide
/-- V-E5, V-Q3. -/
theorem test_finish :
    after State.statusWord .finish State.reset = some 0x00000540 ∧ after State.statusWord .finish waiting = some 0x0000F006 := by decide
/-- V-H15. -/
theorem test_abort :
    after (fun t => (t.statusWord, t.len, t.nblk)) .abort (packed 5#4) = some (0x0000F000, 5, 0) := by decide
/-- V-H13. -/
theorem test_clrstat :
    after State.statusWord .clrstat { State.reset with ctrl := ⟨.ecb, .enc, true⟩, err := true, errCode := .keyMalformed } = some 0 := by decide

/-! ## Rejected transactions, the core and reset -/

/-- V-E9a, V-E9b, V-E9c, V-E3, V-E3b. -/
theorem test_rejected_status :
    [0x04A00000000, 0x14800000000, 0x13800000001].map (fun w : Transaction => afterTurn State.statusWord (.host w) State.reset) =
      [some 0x00000940, some 0x00000940, some 0x00000940] ∧
    [0x10800000013, 0x1080000000F].map (fun w : Transaction => afterTurn State.statusWord (.host w) State.reset) =
      [some 0x00000340, some 0x00000340] := by decide
/-- V-E9a: RDATA = 0; V-E15. -/
theorem test_rejected_effects :
    afterTurn State.rdata (.host 0x04A00000000) State.reset = some (some 0) ∧
    afterTurn State.statusWord (.host 0x10800000009) blockRunning = some 0x0000F341 := by decide
/-- Section 2.4, encryption round 1, as a core turn. -/
theorem test_core_round :
    afterTurn (fun t => (t.w, t.sum, t.rnd)) .core blockRunning = some (⟨0x9E3779B9, 0xDBE8D32F⟩, 0x9E3779B9, 1#6) := by decide
/-- V-Q1: SESS_TAKE of "Hi!". -/
theorem test_core_take :
    afterTurn (fun t => (t.w, t.statusWord)) .core
      { waiting with fin := true, pcnt := 3#4, len := 3, pack := #v[0x48, 0x69, 0x21, 0, 0, 0, 0, 0] } =
      some (⟨0x48692100, 0⟩, 0x0000F007) := by decide
/-- V-Q5: SESS_EMIT in CBC encryption. -/
theorem test_core_emit :
    afterTurn (fun t => (t.chain, t.obuf, t.statusWord)) .core
      { running 32#6 with ivOk := 3#2, cmode := .cbc, w := ⟨0x6A2F9CF3, 0xFCCF3C55⟩, chain := ⟨0x01020304, 0x05060708⟩ } =
      some (⟨0x6A2F9CF3, 0xFCCF3C55⟩, #v[0x6A, 0x2F, 0x9C, 0xF3, 0xFC, 0xCF, 0x3C, 0x55], 0x0803F01A) := by decide
/-- V-Q3: SESS_CLOSE; V-Q2: BLK_DONE. -/
theorem test_core_close_done :
    afterTurn State.statusWord .core { waiting with fin := true } = some 0x0000F020 ∧
    afterTurn (fun t => (t.blk, t.statusWord)) .core { blockRunning with rnd := 32#6, w := ⟨0x41EA3A0A, 0x94BAA940⟩ } =
      some (⟨0x41EA3A0A, 0x94BAA940⟩, 0x0000F020) := by decide
/-- H1: the stall holds; STATUS is 0x0800F017. -/
theorem test_core_stall :
    afterTurn State.statusWord .core { running 32#6 with fin := true, pcnt := 0#4, ocnt := 8#4 } = some 0x0800F017 := by decide
theorem test_reset_event : afterTurn id .reset (packed 5#4) = some State.reset := by decide
/-- H1, its last line: `wait_closed` polls 0x0800F017 and stays in its loop. -/
theorem test_hosted_wait_stays :
    (Hosted.mk { running 32#6 with fin := true, pcnt := 0#4, ocnt := 8#4 } [.poll .closed]).move .host =
      .next ⟨{ running 32#6 with fin := true, pcnt := 0#4, ocnt := 8#4, rdata := some 0x0800F017 }, [.poll .closed]⟩ := rfl
/-- P5's way out: `wait_out` ends with OBUF full, and the program goes on to its pop. -/
theorem test_hosted_wait_ends :
    (Hosted.start { running 32#6 with ocnt := 8#4 } [.wait .outValid, .pop]).move .host =
      .next ⟨{ running 32#6 with ocnt := 8#4, rdata := some 0x0800F01B }, [.issue 0x03400000000#41]⟩ := rfl
theorem test_foreign_access_is_refused : step (State.reset.withInputs [.foreign]) = .refused .outsideFormat := rfl

/-! ## Witnesses: states and operands that meet the hypotheses of each statement, by statement -/

theorem witness_EncodeOfDecode : decode 0x0345A5A5A5A#41 = .ok .rdDout ∧ decode 0x13000000048#41 = .ok (.wrDin 0x48) := by decide
theorem witness_TableRow : ∃ row ∈ opcodeTable, 0x10800000001#41 &&& row.mask = row.pattern := by decide
/-- Each class at its bounds: the last mapped offset and the one after it, the last opcode and the one after it, RSV = 1. -/
theorem witness_DecoderIsTotal :
    decode 0x04400000000#41 = .ok .rdChainR ∧ decode 0x04800000000#41 = .error .badAccess ∧ decode 0x04500000000#41 = .error .badAccess ∧
    decode 0x14400000000#41 = .error .badAccess ∧ decode 0x10800000006#41 = .ok .clrstat ∧ decode 0x10800000007#41 = .error .illegalCmd ∧
    decode 0x10800000010#41 = .error .illegalCmd := by decide
theorem witness_IllegalTransaction :
    (waiting.withInputs [.host 0x04800000000#41]).inputs = .host 0x04800000000#41 :: [] ∧ Transaction.wf 0x04800000000#41 = false ∧
    Transaction.wf 0x10800000010#41 = false ∧ Transaction.wf 0x10C00000000#41 = false := by decide
theorem witness_StepRuns :
    (State.reset.withInputs [.host 0x10800000003#41]).inputs = .host 0x10800000003#41 :: [] ∧ decode 0x10800000003#41 = .ok .start := by decide
theorem witness_ResetEvent : ((packed 5#4).withInputs [.reset, .core]).inputs = .reset :: [.core] := by decide
theorem witness_StepKeepsInv : (packed 8#4).Inv ∧ ∃ t, step (packed 8#4) = .next t ∧ t.Inv := by
  exact ⟨by decide, _, rfl, by decide⟩
/-- A reachable state that is not the reset state: BLK_L has been written. -/
theorem witness_Reachable : ∃ s : State, Reachable s ∧ s.blk = ⟨7, 0⟩ :=
  ⟨_, .step (.feed [.host (encode (.wrBlkL 7))] .reset) rfl, rfl⟩
theorem witness_CoreStepsAreExclusive :
    CoreStep.sessTake.enabled (packed 8#4) = true ∧ CoreStep.sessTake.enabled { packed 1#4 with fin := true } = true ∧
    State.reset.st = .idle ∧ ((packed 7#4).st = .sessWait ∧ (packed 7#4).fin = false ∧ (packed 7#4).pcnt < 8#4) ∧
    (({ running 32#6 with ocnt := 1#4 } : State).st = .sessRun ∧ ({ running 32#6 with ocnt := 1#4 } : State).rnd = 32#6 ∧
      0#4 < ({ running 32#6 with ocnt := 1#4 } : State).ocnt) := by decide
/-- Both directions, both operations, the first and the last round, a scheduled core turn and the empty schedule. -/
theorem witness_CoreRound :
    blockRunning.coreNext [] ∧ blockRunning.st = .blkRun ∧ blockRunning.rnd < 32#6 ∧ blockRunning.cdir = .enc ∧
    (let s : State := { (running 31#6).withInputs [.core, .reset] with cdir := .dec }
     s.coreNext [.reset] ∧ s.st = .sessRun ∧ s.rnd < 32#6 ∧ s.cdir = .dec) := by decide
theorem witness_CoreDoneAndClose :
    (let s : State := { blockRunning with rnd := 32#6 }; s.coreNext [] ∧ s.st = .blkRun ∧ s.rnd = 32#6) ∧
    (let s : State := { waiting with fin := true }; s.coreNext [] ∧ s.st = .sessWait ∧ s.fin = true ∧ s.pcnt = 0#4) := by decide
/-- A full packer, and a final one of 1 and of 7 bytes. -/
theorem witness_CoreTakes :
    ((packed 8#4).coreNext [] ∧ (packed 8#4).st = .sessWait ∧ (packed 8#4).pcnt = 8#4) ∧
    (let s : State := { packed 1#4 with fin := true }; s.coreNext [] ∧ s.fin = true ∧ 1#4 ≤ s.pcnt ∧ s.pcnt ≤ 7#4) ∧
    (let s : State := { packed 7#4 with fin := true }; s.coreNext [] ∧ s.fin = true ∧ 1#4 ≤ s.pcnt ∧ s.pcnt ≤ 7#4) := by decide
theorem witness_CoreEmits :
    (running 32#6).coreNext [] ∧ (running 32#6).st = .sessRun ∧ (running 32#6).rnd = 32#6 ∧ (running 32#6).ocnt = 0#4 := by decide
theorem witness_CoreHolds :
    (State.reset.coreNext [] ∧ State.reset.st = .idle) ∧
    ((packed 7#4).coreNext [] ∧ (packed 7#4).st = .sessWait ∧ (packed 7#4).fin = false ∧ (packed 7#4).pcnt < 8#4) ∧
    (let s : State := { running 32#6 with ocnt := 1#4 }; s.coreNext [] ∧ s.st = .sessRun ∧ s.rnd = 32#6 ∧ 0#4 < s.ocnt) := by decide
theorem witness_CoreRaisesNothing :
    (packed 8#4).coreNext [] ∧ (∃ t, step (packed 8#4) = .next t) ∧
    ¬ (((packed 8#4).st = .blkRun ∨ (packed 8#4).st = .sessRun) ∧ (packed 8#4).rnd < 32#6) := ⟨by decide, ⟨_, rfl⟩, by decide⟩
theorem witness_SumSchedule : (1 ≤ 1 ∧ 1 ≤ 32) ∧ (1 ≤ 32 ∧ 32 ≤ 32) := by decide
theorem witness_CbcAlteration : (⟨0, 0⟩ : Block) ≠ ⟨0, 1⟩ := by decide
theorem witness_PaddedTake : (1 ≤ (1#4).toNat ∧ (1#4).toNat ≤ 8) ∧ (1 ≤ (8#4).toNat ∧ (8#4).toNat ≤ 8) := by decide
/-- Both branches of the locked writes. -/
theorem witness_KeyIvBlockWrites : State.reset.st = .idle ∧ blockRunning.st ≠ .idle ∧ waiting.st ≠ .idle ∧ (running 0#6).st ≠ .idle := by decide
/-- Each clause of the DIN write, at the bounds of LEN and PCNT. -/
theorem witness_DinPush :
    (¬ (State.reset.st = .sessWait ∨ State.reset.st = .sessRun)) ∧ ({ waiting with fin := true } : State).fin = true ∧
    (let s : State := { waiting with len := 0xFFFFFFFF }; s.st = .sessWait ∧ s.fin = false ∧ s.len.toNat = 2 ^ 32 - 1) ∧
    (let s : State := { waiting with pcnt := 8#4, len := 0xFFFFFFFE }
     s.st = .sessWait ∧ s.fin = false ∧ s.len.toNat < 2 ^ 32 - 1 ∧ s.pcnt = 8#4) ∧
    (let s : State := { running 5#6 with pcnt := 7#4, len := 0xFFFFFFFE }
     s.st = .sessRun ∧ s.fin = false ∧ s.len.toNat < 2 ^ 32 - 1 ∧ s.pcnt.toNat < 8) := by decide
theorem witness_DoutPop :
    State.reset.ocnt = 0#4 ∧ (0 : Fin 8).val + (filled 8#4).ocnt.toNat = 8 ∧ (7 : Fin 8).val + (filled 1#4).ocnt.toNat = 8 := by decide
theorem witness_BlockCommands :
    waiting.st ≠ .idle ∧ (State.reset.st = .idle ∧ State.reset.keyOk ≠ 0b1111#4) ∧
    (let s : State := { State.reset with keyOk := 0b0111#4 }; s.st = .idle ∧ s.keyOk ≠ 0b1111#4) ∧
    (keyed.st = .idle ∧ keyed.keyOk = 0b1111#4) := by decide
theorem witness_Start :
    blockRunning.st ≠ .idle ∧ ((filled 1#4).st = .idle ∧ (filled 1#4).ocnt ≠ 0#4) ∧
    (State.reset.st = .idle ∧ State.reset.ocnt = 0#4 ∧ State.reset.keyOk ≠ 0b1111#4) ∧
    (let s : State := { keyed with ctrl := ⟨.cbc, .enc, false⟩, ivOk := 0b10#2 }
     s.st = .idle ∧ s.ocnt = 0#4 ∧ s.keyOk = 0b1111#4 ∧ s.ctrl.mode = .cbc ∧ s.ivOk ≠ 0b11#2) ∧
    (keyed.ocnt = 0#4 ∧ keyed.ctrl.mode = .ecb) ∧
    (let s : State := { keyed with ctrl := ⟨.cbc, .dec, false⟩, ivOk := 0b11#2 }
     s.st = .idle ∧ s.ocnt = 0#4 ∧ s.keyOk = 0b1111#4 ∧ s.ivOk = 0b11#2) := by decide
theorem witness_NopAndFinish :
    waiting.st = .sessWait ∧ (running 0#6).st = .sessRun ∧ ({ waiting with fin := true } : State).fin = true ∧
    State.reset.st = .idle ∧ blockRunning.st = .blkRun := by decide
theorem witness_TransactionNeverWaits : (blockRunning.withInputs [.host 0#41, .core]).inputs = .host 0#41 :: [.core] := by decide
/-- A first error; and a code that changes while ERR is set, under CLRSTAT. -/
theorem witness_ErrorsArePrecise :
    (∃ t, step (State.reset.withInputs [.host (encode .finish)]) = .next t ∧ State.reset.err = false ∧ t.err = true) ∧
    (let s : State := { State.reset with err := true, errCode := .busy }
     ∃ t, step (s.withInputs [.host (encode .clrstat)]) = .next t ∧ s.err = true ∧ t.errCode ≠ s.errCode) :=
  ⟨⟨_, rfl, by decide⟩, ⟨_, rfl, by decide⟩⟩
theorem witness_ErrorsBlockNothing :
    (waiting.withInputs [.host (encode (.wrDin 7))]).inputs = .host (encode (.wrDin 7)) :: [] ∧
    (∃ t, step (waiting.withInputs [.host (encode (.wrDin 7))]) = .next t) ∧ decode (encode (.wrDin 7)) ≠ .ok .rdStatus :=
  ⟨rfl, ⟨_, rfl⟩, by decide⟩
/-- A set status that stays, an error set by a transaction, and DONE set by each of the two core steps. -/
theorem witness_OnlyClrstatAndReset :
    (let s : State := { State.reset with err := true, done := true, inputs := [.host (encode .abort)] }
     (∃ t, step s = .next t) ∧ s.inputs.head? ≠ some .reset ∧ s.inputs.head? ≠ some (.host (encode .clrstat)) ∧ s.err = true ∧ s.done = true) ∧
    (∃ t, step (State.reset.withInputs [.host (encode .finish)]) = .next t ∧ State.reset.err = false ∧ t.err = true) ∧
    (∃ t, step { blockRunning with rnd := 32#6 } = .next t ∧ blockRunning.done = false ∧ t.done = true) ∧
    (∃ t, step { waiting with fin := true } = .next t ∧ waiting.done = false ∧ t.done = true) :=
  ⟨⟨⟨_, rfl⟩, by decide⟩, ⟨_, rfl, by decide⟩, ⟨_, rfl, by decide⟩, ⟨_, rfl, by decide⟩⟩
theorem witness_OnlyResetClears :
    (∃ t, step (keyed.withInputs [.reset]) = .next t ∧ (keyed.withInputs [.reset]).inputs.head? = some .reset) ∧
    (∃ t, step (keyed.withInputs [.host (encode .abort)]) = .next t ∧ (keyed.withInputs [.host (encode .abort)]).inputs.head? ≠ some .reset) :=
  ⟨⟨_, rfl, by decide⟩, ⟨_, rfl, by decide⟩⟩
theorem witness_KeyIvAndBlock :
    let s : State := { blockRunning with rnd := 32#6 }
    s.st ≠ .idle ∧ s.inputs.head? ≠ some .reset ∧ ∃ t, step s = .next t := ⟨by decide, by decide, _, rfl⟩
theorem witness_RevealNothing :
    (blockRunning.withInputs [.host (encode .rdKey0)]).inputs = .host (encode .rdKey0) :: [] ∧
    ∃ t, step (blockRunning.withInputs [.host (encode .rdKey0)]) = .next t := ⟨rfl, _, rfl⟩
/-- Two states that differ in W, SUM, RND, IN, cdir, cmode and OBUF, and look the same. -/
theorem witness_StaleState :
    let t : State := { State.reset with
      w := ⟨1, 2⟩, sum := 3, rnd := 4#6, inBlk := ⟨5, 6⟩, cdir := .dec, cmode := .cbc, obuf := #v[1, 2, 3, 4, 5, 6, 7, 8] }
    State.reset.sameLive t ∧ State.reset ≠ t := by decide
/-- The run in which only the core moves. -/
def coreOnly (h : Hosted) : Nat → Hosted
  | 0 => h
  | n + 1 => ⟨((coreOnly h n).dev.withInputs []).coreTurn, (coreOnly h n).program⟩
/-- A silent block at work, and a fair run of one whose program has ended. -/
theorem witness_SilentHost :
    (packed 8#4).inputs = [] ∧
    ∃ r a, r 0 = ⟨blockRunning, []⟩ ∧ Hosted.isRun r a ∧ Hosted.fair r a ∧ ∀ m, 0 ≤ m → (r m).program = (r 0).program := by
  refine ⟨by decide, coreOnly ⟨blockRunning, []⟩, fun _ => .core, rfl, fun n => move_core _, fun n _ _ => ⟨n, le_refl _, rfl⟩, fun m _ => ?_⟩
  induction m with
  | zero => rfl
  | succ m ih => exact ih (Nat.zero_le _)
theorem witness_StalledSession :
    let s : State := { running 32#6 with ocnt := 1#4 }
    s.st = .sessRun ∧ s.rnd = 32#6 ∧ s.ocnt ≠ 0#4 ∧
      ∀ u ∈ [Turn.core, .host (encode .rdStatus)], u = .core ∨ u = .host (encode .rdStatus) := by decide
/-- Each wait loop in a state where it never ends, by the letter of R312, with a run from one of them; and the case of entry 18. -/
theorem witness_HopelessWaits :
    WaitLoop.inReady.hopeless { running 0#6 with ocnt := 1#4, pcnt := 8#4 } = true ∧
    WaitLoop.done.hopeless { packed 1#4 with fin := true, ocnt := 8#4 } = true ∧
    WaitLoop.closed.hopeless { running 32#6 with fin := true, ocnt := 1#4 } = true ∧
    WaitLoop.outValid.hopeless keyed = true ∧ WaitLoop.done.hopeless keyed = true ∧ WaitLoop.inReady.hopeless keyed = true ∧
    WaitLoop.idle.hopeless { running 32#6 with ocnt := 1#4 } = true ∧
    (∃ r a, r 0 = ⟨{ running 32#6 with ocnt := 1#4 }, [.poll .closed]⟩ ∧ Hosted.isRun r a) ∧
    ({ running 32#6 with ocnt := 8#4, pcnt := 7#4 } : State).pcnt < 8#4 :=
  ⟨by decide, by decide, by decide, by decide, by decide, by decide, by decide,
    ⟨coreOnly _, fun _ => .core, rfl, fun _ => move_core _⟩, by decide⟩
/-- R312 (a) in its state, block 1 in OBUF and block 2 in W: a host that pushes a further block and waits, from an empty packer and a full one. -/
theorem witness_BlockedEmit :
    let xs : List Byte := [1, 2, 3, 4, 5, 6, 7, 8]
    let s : State := { running 32#6 with ocnt := 8#4, len := 16 }
    let h : Hosted := ⟨s, pushOps xs ++ [.poll .inReady]⟩
    s.emitBlocked = true ∧ { s with pcnt := 8#4, len := 24 }.emitBlocked = true ∧ (∀ op ∈ h.program, op.leavesOutput) ∧ xs.length = 8 ∧
    s.fin = false ∧ s.pcnt.toNat ≤ 8 ∧ s.len.toNat + 8 < 2 ^ 32 ∧ ∃ r a, r 0 = h ∧ Hosted.isRun r a :=
  ⟨by decide, by decide, by decide, by decide, by decide, by decide, by decide, coreOnly _, fun _ => .core, rfl, fun _ => move_core _⟩
theorem witness_BlockCommandRound :
    keyed.st = .idle ∧ keyed.keyOk = 0b1111#4 ∧
    (∀ u ∈ [Turn.core, .host (encode .rdStatus), .core], u.keepsWork = true) ∧
    coreTurns [Turn.core, .host (encode .rdStatus), .core] ≤ 32 := by decide
theorem witness_BlockCommand :
    keyed.st = .idle ∧ keyed.keyOk = 0b1111#4 ∧
    (∀ u ∈ Turn.host (encode .rdStatus) :: List.replicate 32 .core, u.keepsWork = true) ∧
    coreTurns (Turn.host (encode .rdStatus) :: List.replicate 32 .core) = 32 := by decide
theorem witness_SessionBlock :
    ((packed 8#4).inputs = [] ∧ (packed 8#4).st = .sessWait ∧ (packed 8#4).pcnt = 8#4 ∧ (packed 8#4).ocnt = 0#4) ∧
    (let s : State := { packed 1#4 with fin := true }; s.fin = true ∧ 1#4 ≤ s.pcnt ∧ s.pcnt ≤ 7#4 ∧ s.ocnt = 0#4) := by decide
/-- A session opened, finished and closed: its trace exists and ends outside the session. -/
theorem witness_SessionTrace : ∃ s, SessionTrace keyed s [] [] [] ∧ s.session = false :=
  have h0 : SessionTrace keyed keyed.openSession [] [] [] := .opened (by decide) rfl
  have h1 : SessionTrace keyed keyed.openSession.endInput [] [] [] := .turn (.host (encode .finish)) h0 rfl (by decide) rfl
  have h2 : SessionTrace keyed keyed.openSession.endInput.closeSession [] [] [] := .turn .core h1 rfl rfl rfl
  ⟨_, h2, rfl⟩
/-- A session of one byte, run to its close: it has emitted the 8 bytes of its padded block. -/
theorem witness_SessionTrace_oneByte :
    ∃ s din out, SessionTrace keyed s din out [] ∧ s.session = false ∧ din = [0x48] ∧ out.length = 8 := by
  have h0 : SessionTrace keyed keyed.openSession [] [] [] := .opened (by decide) rfl
  have h1 : SessionTrace keyed (keyed.openSession.pushByte 0x48) [0x48] [] [] := .turn (.host (encode (.wrDin 0x48))) h0 rfl (by decide) rfl
  have h2 : SessionTrace keyed (keyed.openSession.pushByte 0x48).endInput [0x48] [] [] :=
    .turn (.host (encode .finish)) h1 rfl (by decide) rfl
  have h3 : SessionTrace keyed (keyed.openSession.pushByte 0x48).endInput.takeInput [0x48] [] [] := .turn .core h2 rfl rfl rfl
  obtain ⟨t, h4, hst, hr, hf, hp, ho⟩ := h3.rounds 32 rfl (by decide)
  obtain ⟨u, h5, hu⟩ := h4.emit hst (BitVec.eq_of_toNat_eq hr) ho
  exact ⟨_, _, _, h5.close (by rw [hu]; rfl) (by rw [hu]; exact hf) (by rw [hu]; exact hp), rfl, rfl, by simp⟩
theorem witness_EmptySession :
    keyed.acceptsStart ∧ ({ keyed with ctrl := ⟨.cbc, .dec, true⟩, ivOk := 0b11#2 } : State).acceptsStart := by decide
theorem witness_Loads : State.reset.st = .idle := by decide
theorem witness_Pushw : waiting.session = true ∧ waiting.fin = false ∧ waiting.pcnt = 0#4 ∧ waiting.len.toNat + 8 < 2 ^ 32 := by decide

end Sys2Proof.Tests
end

/-! PROOFS of the family 10_state.md. First the rules about the state that the statements need: the inductive invariant kept by each operation
of the state, so by every step (R46), the fields of the STATUS word (R24), and the values at reset (R48). Then the statements. -/

section
namespace Sys2Proof.Machine

variable {s t : State}

/-! ## The inductive invariant, operation by operation

The updates that touch no field of the invariant keep it by definition; the others replace only the clauses they touch. -/

theorem zeroBytes_get (i : Fin 8) : zeroBytes[i] = 0 := by
  revert i; decide

/-- An open session excludes the two states for which R46 (3) and (4) speak. -/
theorem st_ne_of_session (hs : s.session = true) : s.st ≠ .idle ∧ s.st ≠ .blkRun := by
  obtain h | h := (session_iff s).mp hs <;> simp [h]

/-- In IDLE nothing but R46 is asked: no session is open and no operation holds a key or an IV. -/
theorem inv_of_idle (h : s.statedInvariants) (hi : s.st = .idle) : s.Inv :=
  have hn : s.session ≠ true := fun hs => (st_ne_of_session hs).1 hi
  ⟨h, fun hs => absurd hs hn, fun hne => absurd hi hne, fun hs => absurd hs hn⟩

theorem inv_reset : State.reset.Inv := by
  decide

theorem State.Inv.withInputs (h : s.Inv) (us : List Turn) : (s.withInputs us).Inv := h

theorem State.Inv.answer (h : s.Inv) (v : Word) : (s.answer v).Inv := h

theorem State.Inv.raise (h : s.Inv) (c : ErrCode) : (s.raise c).Inv := by
  obtain ⟨⟨hcnt, hpack, hidle, hblk, hsum, hnblk, -⟩, hlen, hkey, hiv⟩ := h
  exact ⟨⟨hcnt, hpack, hidle, hblk, hsum, hnblk, nofun⟩, hlen, hkey, hiv⟩

theorem State.Inv.clearStatus (h : s.Inv) : s.clearStatus.Inv := by
  obtain ⟨⟨hcnt, hpack, hidle, hblk, hsum, hnblk, -⟩, hlen, hkey, hiv⟩ := h
  exact ⟨⟨hcnt, hpack, hidle, hblk, hsum, hnblk, fun _ => rfl⟩, hlen, hkey, hiv⟩

theorem State.Inv.reject (h : s.Inv) (why : Reject) (w : Bool) : (s.reject why w).Inv := by
  obtain ⟨-, e⟩ | ⟨-, e⟩ := reject_cases s why w <;> rw [e]
  · exact h.raise _
  · exact (h.raise _).answer _

theorem State.Inv.popByte (h : s.Inv) (ho : s.ocnt ≠ 0#4) : s.popByte.Inv := by
  obtain ⟨⟨⟨hpcnt, hocnt, hrnd⟩, hrest⟩, hlen, hkey, hiv⟩ := h
  have hocnt' : (s.ocnt - 1).toNat ≤ 8 := by bv_omega
  exact ⟨⟨⟨hpcnt, hocnt', hrnd⟩, hrest⟩, hlen, hkey, hiv⟩

/-- An accepted byte counts in PCNT and in LEN alike (R170); LEN does not wrap, by R196's LEN_OVERFLOW check. -/
theorem State.Inv.pushByte (h : s.Inv) (ha : s.acceptsPush) (x : Byte) : (s.pushByte x).Inv := by
  obtain ⟨⟨⟨hpcnt, hocnt, hrnd⟩, hpack, -, -, hsum, hnblk, herr⟩, hlen, hkey, hiv⟩ := h
  obtain ⟨hs, hf, hmax, hfull⟩ := ha
  obtain ⟨-, -, hexact⟩ := hlen hs
  have hp : (s.pcnt + 1).toNat = s.pcnt.toNat + 1 := by bv_omega
  have hl : (s.len + 1).toNat = s.len.toNat + 1 := by bv_omega
  have hpack' : (s.pushByte x).packZeroBeyond := by
    intro i hi
    rw [pushByte_pcnt, hp] at hi
    rw [pushByte_pack_get, if_neg (by omega)]
    exact hpack i (by omega)
  have hlen' : (s.pushByte x).lenAccounted := by
    intro _
    have he := hexact (.inl hf)
    have htaken : (s.pushByte x).takenBlocks = s.takenBlocks := rfl
    rw [pushByte_len, pushByte_pcnt, htaken, hp, hl]
    omega
  obtain ⟨hni, hnb⟩ := st_ne_of_session hs
  refine ⟨⟨⟨?_, hocnt, hrnd⟩, hpack', fun hi => absurd hi hni, fun hb => absurd hb hnb, hsum, ?_, herr⟩, hlen', hkey, hiv⟩
  · rw [pushByte_pcnt, hp]; bv_omega
  · rw [pushByte_nblk, pushByte_len, hl]; omega

/-- A block operation starts on its schedule: no round done, SUM at the direction's initial sum. -/
theorem sumInit_toNat (d : Dir) : (sumInit d).toNat = (if d = .enc then 0 else 32) * 0x9E3779B9 % 2 ^ 32 := by
  cases d <;> rfl

theorem State.Inv.beginBlock (h : s.Inv) (hi : s.st = .idle) (hk : s.keyOk = 0b1111#4) (d : Dir) : (s.beginBlock d).Inv := by
  obtain ⟨⟨⟨hpcnt, hocnt, -⟩, hpack, hidle, -, -, hnblk, herr⟩, -⟩ := h
  exact ⟨⟨⟨hpcnt, hocnt, Nat.zero_le _⟩, hpack, nofun, fun _ => hidle hi, fun _ => sumInit_toNat d, hnblk, herr⟩,
    nofun, fun _ => hk, nofun⟩

theorem State.Inv.openSession (h : s.Inv) (ha : s.acceptsStart) : s.openSession.Inv := by
  obtain ⟨⟨⟨-, hocnt, hrnd⟩, -, -, -, -, -, herr⟩, -⟩ := h
  obtain ⟨-, -, hk, hiv⟩ := ha
  exact ⟨⟨⟨Nat.zero_le _, hocnt, hrnd⟩, fun i _ => zeroBytes_get i, nofun, nofun, nofun, Nat.zero_le _, herr⟩,
    fun _ => ⟨Nat.le_refl _, Nat.zero_lt_succ _, fun _ => rfl⟩, fun _ => hk, fun _ => hiv⟩

theorem State.Inv.endInput (h : s.Inv) (hs : s.session = true) : s.endInput.Inv := by
  obtain ⟨⟨hcnt, hpack, -, -, hsum, hnblk, herr⟩, hlen, hkey, hiv⟩ := h
  obtain ⟨hni, hnb⟩ := st_ne_of_session hs
  obtain ⟨hle, hlt, hexact⟩ := hlen hs
  exact ⟨⟨hcnt, hpack, fun hi => absurd hi hni, fun hb => absurd hb hnb, hsum, hnblk, herr⟩,
    fun _ => ⟨hle, hlt, fun hp => hexact (.inr (hp.resolve_left nofun))⟩, hkey, hiv⟩

theorem State.Inv.abortWork (h : s.Inv) : s.abortWork.Inv := by
  obtain ⟨⟨-, -, -, -, -, hnblk, herr⟩, -⟩ := h
  refine inv_of_idle ?_ rfl
  exact ⟨⟨Nat.zero_le _, Nat.zero_le _, Nat.zero_le _⟩, fun i _ => zeroBytes_get i, fun _ => ⟨rfl, rfl⟩, nofun, nofun, hnblk, herr⟩

/-- What a round does to SUM, which keeps it on the schedule of R46 (5). -/
theorem roundIn_sum (d : Dir) (b : Block) (sum : Word) (k : Key) :
    (roundIn d b sum k).2 = if d = .enc then sum + delta else sum - delta := by
  cases d <;> rfl

theorem State.Inv.roundStep (h : s.Inv) (hst : s.st = .blkRun ∨ s.st = .sessRun) (hr : s.rnd < 32#6) : s.roundStep.Inv := by
  obtain ⟨⟨⟨hpcnt, hocnt, -⟩, hpack, hidle, hblk, hsum, hnblk, herr⟩, hlen, hkey, hiv⟩ := h
  have hrnd : (s.rnd + 1).toNat = s.rnd.toNat + 1 := by bv_omega
  have hlt : s.rnd.toNat < 32 := hr
  have hsum' : s.roundStep.sumOnSchedule := by
    intro _
    have hs := hsum hst
    rw [roundStep_sum, roundStep_cdir, roundStep_rnd, hrnd, roundIn_sum]
    cases hd : s.cdir with
    | enc =>
      simp only [hd, if_true] at hs ⊢
      rw [BitVec.toNat_add, delta_toNat, hs]
      omega
    | dec =>
      simp only [hd, reduceCtorEq, if_false] at hs ⊢
      rw [BitVec.toNat_sub, delta_toNat, hs]
      omega
  refine ⟨⟨⟨hpcnt, hocnt, ?_⟩, hpack, hidle, hblk, hsum', hnblk, herr⟩, hlen, hkey, hiv⟩
  rw [roundStep_rnd, hrnd]; omega

theorem State.Inv.blockDone (h : s.Inv) (hst : s.st = .blkRun) : s.blockDone.Inv := by
  obtain ⟨⟨hcnt, hpack, -, hblk, -, hnblk, herr⟩, -⟩ := h
  refine inv_of_idle ?_ rfl
  exact ⟨hcnt, hpack, fun _ => hblk hst, nofun, nofun, hnblk, herr⟩

/-- The take moves a block from the packer to the datapath: eight bytes of LEN, or the padded last ones (R243). -/
theorem State.Inv.takeInput (h : s.Inv) (hst : s.st = .sessWait)
    (hp : s.pcnt = 8#4 ∨ (s.fin = true ∧ 1#4 ≤ s.pcnt ∧ s.pcnt ≤ 7#4)) : s.takeInput.Inv := by
  obtain ⟨⟨⟨hpcnt, hocnt, -⟩, -, -, -, -, hnblk, herr⟩, hlen, hkey, hiv⟩ := h
  have hs : s.session = true := (session_iff s).mpr (.inl hst)
  have hpos : 0#4 < s.pcnt := by
    obtain hp | ⟨-, hp, -⟩ := hp <;> bv_omega
  have htaken : s.takenBlocks = s.nblk.toNat := by simp [State.takenBlocks, hst]
  have hbytes : s.len.toNat = 8 * s.nblk.toNat + s.pcnt.toNat := by
    obtain ⟨-, -, hexact⟩ := hlen hs
    rw [← htaken]
    exact hexact (.inr hpos)
  have hfull : s.fin = false → s.pcnt.toNat = 8 := by
    intro hf
    obtain hp | ⟨hf', -⟩ := hp
    · rw [hp]; rfl
    · simp [hf] at hf'
  have hlen' : s.takeInput.lenAccounted := by
    intro _
    have hgt : 0 < s.pcnt.toNat := hpos
    have htaken' : s.takeInput.takenBlocks = s.nblk.toNat + 1 := rfl
    have hempty : s.takeInput.pcnt.toNat = 0 := rfl
    rw [htaken', hempty, takeInput_len, takeInput_fin]
    refine ⟨by omega, by omega, ?_⟩
    rintro (hf | h0)
    · have := hfull hf; omega
    · exact absurd h0 (Nat.lt_irrefl 0)
  exact ⟨⟨⟨Nat.zero_le _, hocnt, Nat.zero_le _⟩, fun i _ => zeroBytes_get i, nofun, nofun, fun _ => sumInit_toNat s.cdir, hnblk, herr⟩,
    hlen', fun _ => hkey (by simp [hst]), fun _ => hiv hs⟩

/-- The emitted block stays counted: it leaves the datapath and enters NBLK (R247), which LEN keeps from wrapping. -/
theorem State.Inv.emitOutput (h : s.Inv) (hst : s.st = .sessRun) : s.emitOutput.Inv := by
  obtain ⟨⟨⟨hpcnt, -, hrnd⟩, hpack, -, -, -, -, herr⟩, hlen, hkey, hiv⟩ := h
  have hs : s.session = true := (session_iff s).mpr (.inr hst)
  obtain ⟨hle, hlt, hexact⟩ := hlen hs
  have htaken : s.takenBlocks = s.nblk.toNat + 1 := by simp [State.takenBlocks, hst]
  have hn : (s.nblk + 1).toNat = s.nblk.toNat + 1 := by bv_omega
  have htaken' : s.emitOutput.takenBlocks = s.takenBlocks := by rw [htaken, ← hn]; rfl
  refine ⟨⟨⟨hpcnt, Nat.le_refl 8, hrnd⟩, hpack, nofun, nofun, nofun, ?_, herr⟩, ?_, fun _ => hkey (by simp [hst]), fun _ => hiv hs⟩
  · rw [emitOutput_nblk, emitOutput_len, hn]; omega
  · intro _; rw [htaken']; exact ⟨hle, hlt, hexact⟩

theorem State.Inv.closeSession (h : s.Inv) (hp : s.pcnt = 0#4) : s.closeSession.Inv := by
  obtain ⟨⟨hcnt, hpack, -, -, -, hnblk, herr⟩, -⟩ := h
  refine inv_of_idle ?_ rfl
  exact ⟨hcnt, hpack, fun _ => ⟨rfl, hp⟩, nofun, nofun, hnblk, herr⟩

/-! ## The inductive invariant, step by step -/

/-- No instruction breaks the invariant: each effect is an operation that keeps it. -/
theorem State.Inv.effect {i : Instr} (h : s.Inv) (e : Effect s i t) : t.Inv := by
  have hstated : s.statedInvariants := h.1
  cases e with
  | answer v => exact h.answer v
  | underrun => exact (h.raise _).answer _
  | pop ho => exact (h.popByte ho).answer _
  | ctrl d => exact h
  | key0 d hi | key1 d hi | key2 d hi | key3 d hi | ivL d hi | ivR d hi => exact inv_of_idle hstated hi
  | blkL d | blkR d => exact h
  | refuse c => exact h.raise c
  | push d ha => exact h.pushByte ha _
  | nop => exact h
  | encBlock hi hk | decBlock hi hk => exact h.beginBlock hi hk _
  | start ha => exact h.openSession ha
  | finish hs => exact h.endInput hs
  | abort => exact h.abortWork
  | clrstat => exact h.clearStatus

theorem State.Inv.hostTransaction {w : Transaction} (h : s.Inv) (e : hostTransaction w s = .next t) : t.Inv := by
  obtain ⟨i, -, he⟩ | ⟨why, -, rfl⟩ := hostTransaction_effect s e
  · exact h.effect he
  · exact h.reject why _

theorem State.Inv.coreTurn (h : s.Inv) : s.coreTurn.Inv := by
  obtain ⟨e, -⟩ | ⟨⟨hst, hr⟩, e⟩ | ⟨⟨hst, -⟩, e⟩ | ⟨⟨hst, hp⟩, e⟩ | ⟨⟨hst, -⟩, e⟩ | ⟨⟨-, -, hp⟩, e⟩ := coreTurn_spec s <;> rw [e]
  · exact h
  · exact h.roundStep hst hr
  · exact h.blockDone hst
  · exact h.takeInput hst hp
  · exact h.emitOutput hst
  · exact h.closeSession hp

/-- The inductive step of R46: a turn of the core, a transaction and a reset each keep the invariant. -/
theorem State.Inv.step (h : s.Inv) (e : step s = .next t) : t.Inv := by
  obtain ⟨rest, -, rfl⟩ | ⟨w, rest, -, ht⟩ | ⟨rest, -, rfl⟩ := step_cases e
  · exact (h.withInputs rest).coreTurn
  · exact (h.withInputs rest).hostTransaction ht
  · exact inv_reset.withInputs rest

theorem inv_of_reachable (h : Reachable s) : s.Inv :=
  reachable_induct inv_reset (fun _ us h => h.withInputs us) (fun _ _ h e => h.step e) h

/-! ## Flags, and the fields of the STATUS word (R24) -/

theorem inReady_iff (s : State) :
    s.inReady = true ↔ (s.st = .sessWait ∨ s.st = .sessRun) ∧ s.fin = false ∧ s.pcnt.toNat < 8 := by
  simp [State.inReady, session_iff, BitVec.lt_def, and_assoc]

theorem outValid_iff (s : State) : s.outValid = true ↔ 0 < s.ocnt.toNat := by
  simp [State.outValid, BitVec.lt_def]

/-- The codes are numbered in the order of R271. -/
theorem errCode_at_bits (c : ErrCode) :
    [ErrCode.none, .keyMalformed, .ivMalformed, .illegalCmd, .busy, .noSession, .writeLocked, .overrun, .underrun, .badAccess,
      .lenOverflow, .outputPending][c.bits.toNat]? = some c := by
  cases c <;> rfl

/-- The fields of several bits, each read off its bits. -/
theorem statusWord_fields (s : State) :
    s.statusWord.extractLsb' 8 4 = s.errCode.bits ∧ s.statusWord.extractLsb' 12 4 = s.keyOk ∧
    s.statusWord.extractLsb' 16 2 = s.ivOk ∧ s.statusWord.extractLsb' 18 2 = 0#2 ∧
    s.statusWord.extractLsb' 20 4 = s.pcnt ∧ s.statusWord.extractLsb' 24 4 = s.ocnt ∧ s.statusWord.extractLsb' 28 4 = 0#4 := by
  refine ⟨?_, ?_, ?_, ?_, ?_, ?_, ?_⟩ <;>
  · apply BitVec.eq_of_getLsbD_eq
    intro i hi
    rw [BitVec.getLsbD_extractLsb', statusWord_getLsbD]
    interval_cases i <;> simp

/-- Read transactions written out by their fields select the row of their register, whatever WDATA (R83, R85). -/
theorem decode_read_fields (r : Reg) (d : Word) : decode (0b0#1 ++ r.offset ++ d) = .ok (readRow r) := by
  rw [fields_eq_assemble, decode_assemble]
  simp

/-! ## The statements -/

/-- Settles O12: the inductive invariant, of which R46 is the first part, holds along every run. -/
theorem reachableStatesSatisfyTheStatedInvariants : Obligations.ReachableStatesSatisfyTheStatedInvariants := by
  intro s h
  obtain ⟨hstated, -⟩ := inv_of_reachable h
  exact hstated

/-- Settles O8: the stored values stand in the definition of reset; the flags and STATUS are computed from them. -/
theorem resetLeavesTheStatedValues : Obligations.ResetLeavesTheStatedValues := by
  have hflags : State.reset.session = false ∧ State.reset.irq = false ∧ State.reset.statusWord = 0x00000000 := by decide
  obtain ⟨hsession, hirq, hstatus⟩ := hflags
  exact ⟨rfl, rfl, rfl, rfl, rfl, rfl, rfl, rfl, rfl, rfl, rfl, rfl, rfl, rfl, rfl, rfl, rfl, rfl, rfl, rfl,
    zeroBytes_get, rfl, zeroBytes_get, rfl, hsession, hirq, hstatus, rfl⟩

/-- Settles O32: the read answers `statusWord`, whose bits and fields are the flags and registers named by R24. -/
theorem statusReadShowsEveryField : Obligations.StatusReadShowsEveryField := by
  intro s
  refine ⟨decode_read_fields .status, irq_iff s, s.statusWord, rfl, ?_⟩
  obtain ⟨hcode, hfields⟩ := statusWord_fields s
  refine ⟨?busy, ?session, ?fin, ?inReady, ?outValid, ?done, ?err, ?irq, ?errCode, hfields⟩
  case errCode => rw [hcode]; exact errCode_at_bits s.errCode
  all_goals rw [statusWord_getLsbD]
  case busy => simp [busy_iff]
  case session => simp [session_iff]
  case inReady => simp [inReady_iff]
  case outValid => simp [outValid_iff]
  case fin | done | err | irq => simp

end Sys2Proof.Machine
end

/-! PROOFS of the family 30_encoding.md. First the rules about the decoder that the statements need: what it answers on each class of words,
once (R82), the word behind an answer, and the row of the opcode table that an instruction has (R92). Then the statements. -/

section
namespace Sys2Proof

variable {t : Transaction} {i : Instr}

/-! ## What the decoder answers (R82) -/

/-- A write that step 3 lets through, to a register other than CMD, has a row. -/
theorem exists_writeRow (r : Reg) (d : Word) (hro : isReadOnly r.offset ≠ true) (hcmd : r ≠ .cmd) : ∃ i, writeRow r d = .ok i := by
  cases r with
  | id | status | dout | len | nblk | chainL | chainR => exact absurd rfl hro
  | cmd => exact absurd rfl hcmd
  | _ => exact ⟨_, rfl⟩

theorem exists_decodeCommand {d : Word} (h : d.toNat ≤ 6) : ∃ i, decodeCommand d = .ok i := by
  have hlt : d.toNat < [Instr.nop, .encBlock, .decBlock, .start, .finish, .abort, .clrstat].length := Nat.lt_succ_of_le h
  rw [decodeCommand_eq, List.getElem?_eq_getElem hlt]
  exact ⟨_, rfl⟩

theorem decodeCommand_of_reserved {d : Word} (h : 6 < d.toNat) : decodeCommand d = .error .illegalCmd := by
  have hle : [Instr.nop, .encBlock, .decBlock, .start, .finish, .abort, .clrstat].length ≤ d.toNat := h
  rw [decodeCommand_eq, List.getElem?_eq_none hle]

/-- The list of read-only offsets in the checks is the decoder's. -/
theorem writable_assemble (w : Bool) (r : Reg) (d : Word) : (assemble w r d).writable = !(w && isReadOnly r.offset) := by
  simp only [Transaction.writable, Transaction.offset_eq_addr, Transaction.writes_eq_isWrite, assemble_isWrite, assemble_addr]
  cases r <;> rfl

theorem commandDefined_assemble (w : Bool) (r : Reg) (d : Word) :
    (assemble w r d).commandDefined = (!(w && decide (r = .cmd)) || decide (d.toNat ≤ 6)) := by
  simp only [Transaction.commandDefined, Transaction.offset_eq_addr, Transaction.dataNat_eq_wdata, Transaction.writes_eq_isWrite,
    assemble_isWrite, assemble_addr, assemble_wdata]
  cases r <;> rfl

/-- Steps 1 and 2 leave only assembled words. -/
theorem exists_assemble (ha : t.aligned = true) (hm : t.mapped = true) : ∃ w r d, t = assemble w r d :=
  let ⟨r, ht⟩ := t.eq_assemble ha hm
  ⟨t.isWrite, r, t.wdata, ht⟩

/-- The three answers of the decoder, with the checks of R86 that choose among them. -/
theorem decode_cases (t : Transaction) :
    ((t.aligned = false ∨ t.mapped = false ∨ t.writable = false) ∧ decode t = .error .badAccess) ∨
    ((t.aligned = true ∧ t.mapped = true ∧ t.writable = true) ∧ t.commandDefined = false ∧ decode t = .error .illegalCmd) ∨
    ((t.aligned = true ∧ t.mapped = true ∧ t.writable = true) ∧ t.commandDefined = true ∧ ∃ i, decode t = .ok i) := by
  by_cases ha : t.aligned = true
  case neg =>
    rw [Bool.not_eq_true] at ha
    exact .inl ⟨.inl ha, t.decode_of_misplaced (.inl ha)⟩
  by_cases hm : t.mapped = true
  case neg =>
    rw [Bool.not_eq_true] at hm
    exact .inl ⟨.inr (.inl hm), t.decode_of_misplaced (.inr hm)⟩
  obtain ⟨w, r, d, rfl⟩ := exists_assemble ha hm
  simp only [ha, hm, writable_assemble, commandDefined_assemble, decode_assemble]
  cases w with
  | false => simp
  | true =>
    by_cases hro : isReadOnly r.offset = true
    · simp [hro]
    · by_cases hcmd : r = .cmd
      · subst hcmd
        by_cases hd : d.toNat ≤ 6
        · simp [hro, hd, exists_decodeCommand hd]
        · simp [hro, hd, decodeCommand_of_reserved (Nat.lt_of_not_le hd)]
      · simp [hro, hcmd, exists_writeRow r d hro hcmd]

/-! The checks of R86 on the fields as numbers, in the terms of R82. -/

theorem aligned_eq_false_iff : t.aligned = false ↔ t.offset % 4 ≠ 0 := by
  simp [Transaction.aligned]

theorem mapped_eq_false_iff : t.mapped = false ↔ t.offset > 0x44 := by
  simp [Transaction.mapped]

theorem writes_iff : t.writes = true ↔ t.toNat / 2 ^ 40 = 1 := beq_iff_eq

theorem writable_eq_false_iff :
    t.writable = false ↔ t.toNat / 2 ^ 40 = 1 ∧ t.offset ∈ [0x00, 0x0C, 0x34, 0x38, 0x3C, 0x40, 0x44] := by
  rw [Transaction.writable, Bool.not_eq_false', Bool.and_eq_true, writes_iff, List.contains_iff_mem]

theorem commandDefined_eq_false_iff :
    t.commandDefined = false ↔ t.toNat / 2 ^ 40 = 1 ∧ t.offset = 0x08 ∧ (t.dataNat / 16 ≠ 0 ∨ 7 ≤ t.dataNat % 16) := by
  have hreserved : ¬ t.dataNat ≤ 6 ↔ t.dataNat / 16 ≠ 0 ∨ 7 ≤ t.dataNat % 16 := by omega
  rw [Transaction.commandDefined, Bool.or_eq_false_iff, Bool.not_eq_false', Bool.and_eq_true, writes_iff, beq_iff_eq,
    decide_eq_false_iff_not, hreserved, and_assoc]

theorem decode_eq_badAccess_iff :
    decode t = .error .badAccess ↔ t.aligned = false ∨ t.mapped = false ∨ t.writable = false := by
  obtain ⟨hc, h⟩ | ⟨⟨ha, hm, hw⟩, -, h⟩ | ⟨⟨ha, hm, hw⟩, -, i, h⟩ := decode_cases t
  · simp [h, hc]
  · simp [h, ha, hm, hw]
  · simp [h, ha, hm, hw]

theorem decode_eq_illegalCmd_iff :
    decode t = .error .illegalCmd ↔
      ¬ (t.aligned = false ∨ t.mapped = false ∨ t.writable = false) ∧ t.commandDefined = false := by
  obtain ⟨hc, h⟩ | ⟨⟨ha, hm, hw⟩, hd, h⟩ | ⟨⟨ha, hm, hw⟩, hd, i, h⟩ := decode_cases t
  · simp [h, hc]
  · simp [h, ha, hm, hw, hd]
  · simp [h, hd]

/-! ## The word behind an answer -/

/-- Only legal words decode to an instruction (R86). -/
theorem wf_of_decode (h : decode t = .ok i) : t.wf = true := by
  obtain ⟨-, hbad⟩ | ⟨-, -, hillegal⟩ | ⟨⟨ha, hm, hw⟩, hd, -⟩ := decode_cases t
  · cases hbad.symm.trans h
  · cases hillegal.symm.trans h
  · simp [Transaction.wf, ha, hm, hw, hd]

theorem encode_readRow (r : Reg) : encode (readRow r) = assemble false r 0 := by
  cases r <;> rfl

theorem encode_of_writeRow {r : Reg} {d : Word} (h : writeRow r d = .ok i) : encode i = assemble true r d := by
  cases r <;> cases h <;> rfl

theorem encode_of_decodeCommand {d : Word} (h : decodeCommand d = .ok i) : encode i = assemble true .cmd d := by
  by_cases hd : d.toNat ≤ 6
  · have hn : d = BitVec.ofNat 32 d.toNat := by simp
    generalize d.toNat = n at hd hn
    subst hn
    interval_cases n <;> cases h <;> rfl
  · rw [decodeCommand_of_reserved (Nat.lt_of_not_le hd)] at h
    cases h

/-- A word that decodes is the word of its instruction, except that a read's WDATA is ignored (R83). -/
theorem word_of_decode (h : decode t = .ok i) : t = encode i ∨ ∃ r d, t = assemble false r d ∧ i = readRow r := by
  have hwf := wf_of_decode h
  simp only [Transaction.wf, Bool.and_eq_true] at hwf
  obtain ⟨⟨⟨ha, hm⟩, -⟩, -⟩ := hwf
  obtain ⟨w, r, d, rfl⟩ := exists_assemble ha hm
  rw [decode_assemble] at h
  cases w with
  | false => exact .inr ⟨r, d, rfl, by simpa using h.symm⟩
  | true =>
    left
    split at h
    · cases h
    · split at h
      next hcmd => rw [hcmd.2]; exact (encode_of_decodeCommand h).symm
      next => exact (encode_of_writeRow h).symm

/-! ## The row of an instruction (R92) -/

theorem isWrite_and (t u : Transaction) : (t &&& u).isWrite = (t.isWrite && u.isWrite) := BitVec.getLsbD_and

theorem addr_and (t u : Transaction) : (t &&& u).addr = t.addr &&& u.addr := BitVec.extractLsb'_and

theorem wdata_and (t u : Transaction) : (t &&& u).wdata = t.wdata &&& u.wdata := BitVec.extractLsb'_and

/-- The mask of W and ADDR keeps these fields and clears WDATA. -/
theorem assemble_and_headMask (w : Bool) (r : Reg) (d : Word) : assemble w r d &&& 0x1FF00000000#41 = assemble w r 0 := by
  have hones : Transaction.addr 0x1FF00000000#41 = BitVec.allOnes 8 := by decide
  have hzero : Transaction.wdata 0x1FF00000000#41 = 0 := by decide
  apply Transaction.eq_of_fields
  · rw [isWrite_and, assemble_isWrite, assemble_isWrite]
    exact Bool.and_true w
  · rw [addr_and, hones, BitVec.and_allOnes, assemble_addr, assemble_addr]
  · rw [wdata_and, hzero, assemble_wdata, assemble_wdata]
    exact BitVec.and_zero

/-- The mask of an instruction's row: a command's is all 41 bits, any other's W and ADDR. -/
def Instr.mask : Instr → BitVec 41
  | .nop | .encBlock | .decBlock | .start | .finish | .abort | .clrstat => 0x1FFFFFFFFFF#41
  | _ => 0x1FF00000000#41

/-- The row of an instruction: its word under its mask. -/
def Instr.row (i : Instr) : OpcodeRow := ⟨i.mnemonic, encode i &&& i.mask, i.mask⟩

/-- A register write's row does not depend on its WDATA: membership is that of the row with WDATA = 0. -/
theorem row_mem_opcodeTable (i : Instr) : i.row ∈ opcodeTable := by
  cases i with
  | wrCtrl d | wrKey0 d | wrKey1 d | wrKey2 d | wrKey3 d | wrIvL d | wrIvR d | wrBlkL d | wrBlkR d | wrDin d =>
    simp only [Instr.row, Instr.mask, Instr.mnemonic, encode, assemble_and_headMask]
    decide
  | _ => decide

theorem mask_readRow (r : Reg) : (readRow r).mask = 0x1FF00000000#41 := by
  cases r <;> rfl

/-- A word selects the row of the instruction it decodes to. -/
theorem row_selects_of_decode (h : decode t = .ok i) : i.row.selects t = true := by
  have hand : t &&& i.mask = encode i &&& i.mask := by
    obtain rfl | ⟨r, d, rfl, rfl⟩ := word_of_decode h
    · rfl
    · rw [mask_readRow, encode_readRow, assemble_and_headMask, assemble_and_headMask]
  exact beq_iff_eq.mpr hand

/-- No word selects two rows: their patterns differ on the bits that both rows look at. -/
theorem row_eq_of_selects {row row' : OpcodeRow} (hm : row ∈ opcodeTable) (hm' : row' ∈ opcodeTable) (hs : row.selects t = true)
    (hs' : row'.selects t = true) : row' = row := by
  have hdisjoint : ∀ row ∈ opcodeTable, ∀ row' ∈ opcodeTable, row.pattern &&& row'.mask = row'.pattern &&& row.mask → row' = row := by
    decide
  apply hdisjoint row hm row' hm'
  rw [← beq_iff_eq.mp hs, ← beq_iff_eq.mp hs', BitVec.and_assoc, BitVec.and_assoc, BitVec.and_comm row.mask]

theorem selects_iff_of_decode (h : decode t = .ok i) {row : OpcodeRow} (hm : row ∈ opcodeTable) :
    row.selects t = true ↔ row = i.row := by
  constructor
  · exact row_eq_of_selects (row_mem_opcodeTable i) hm (row_selects_of_decode h)
  · rintro rfl
    exact row_selects_of_decode h

/-! ## Words written out by their fields -/

/-- A write written out by its fields selects the row of its register and carries the WDATA (R83, R85). -/
theorem decode_write_fields (r : Reg) (d : Word) (hro : isReadOnly r.offset = false) (hcmd : r ≠ .cmd) :
    decode (0b1#1 ++ r.offset ++ d) = writeRow r d := by
  rw [fields_eq_assemble, decode_assemble]
  simp [hro, hcmd]

/-- A DIN write whose WDATA has the byte in bits 7:0 and 0 above, written out by its fields, is a push (R90). -/
theorem push_fields (x : Byte) : (0b1#1 ++ 0x30#8 ++ 0x000000#24 ++ x : BitVec 41) = Machine.pushTransaction x := by
  have hpad : (0x000000#24 ++ x : BitVec 32) = BitVec.setWidth 32 x :=
    (BitVec.setWidth_eq_append (by decide)).symm
  calc (0b1#1 ++ 0x30#8 ++ 0x000000#24 ++ x : BitVec 41)
    _ = 0b1#1 ++ Reg.din.offset ++ (0x000000#24 ++ x) := BitVec.append_assoc
    _ = 0b1#1 ++ Reg.din.offset ++ BitVec.setWidth 32 x := by rw [hpad]
    _ = Machine.pushTransaction x := fields_eq_assemble 0b1#1 .din _

end Sys2Proof
end

section
namespace Sys2Proof.Machine

/-! ## The statements -/

/-- Settles O4: the checks of R86 choose among the three answers, and R82's conditions are these checks written out on the number. -/
theorem decoderIsTotalByRowOrName : Obligations.DecoderIsTotalByRowOrName := by
  intro t write offset data bad illegal
  have hbad : decode t = .error .badAccess ↔ bad := by
    rw [decode_eq_badAccess_iff, aligned_eq_false_iff, mapped_eq_false_iff, writable_eq_false_iff]
    rfl
  have hillegal : decode t = .error .illegalCmd ↔ illegal := by
    rw [decode_eq_illegalCmd_iff, ← decode_eq_badAccess_iff, hbad, commandDefined_eq_false_iff]
    rfl
  refine ⟨hbad, hillegal, fun hnb hni => ?_⟩
  obtain ⟨-, h⟩ | ⟨-, -, h⟩ | ⟨-, -, i, h⟩ := decode_cases t
  · exact absurd (hbad.mp h) hnb
  · exact absurd (hillegal.mp h) hni
  · exact ⟨i, i.row, h, row_mem_opcodeTable i, rfl, fun row hm => selects_iff_of_decode h hm⟩

/-- Settles O7: the reads and writes by their register, the commands by their words. -/
theorem rowsByTheirFields : Obligations.RowsByTheirFields := by
  have hread := decode_read_fields
  have hwrite := decode_write_fields
  refine ⟨fun d => ?_, fun d => ?_, by decide⟩
  · exact ⟨hread .id d, hread .ctrl d, hread .cmd d, hread .status d, hread .key0 d, hread .key1 d, hread .key2 d, hread .key3 d,
      hread .ivL d, hread .ivR d, hread .blkL d, hread .blkR d, hread .din d, hread .dout d, hread .len d, hread .nblk d,
      hread .chainL d, hread .chainR d⟩
  · exact ⟨hwrite .ctrl d rfl nofun, hwrite .key0 d rfl nofun, hwrite .key1 d rfl nofun, hwrite .key2 d rfl nofun,
      hwrite .key3 d rfl nofun, hwrite .ivL d rfl nofun, hwrite .ivR d rfl nofun, hwrite .blkL d rfl nofun,
      hwrite .blkR d rfl nofun, hwrite .din d rfl nofun⟩

/-- Settles O58: each line's word is assembled from the fields named, and a STATUS read shows the flags that the wait loops look at. -/
theorem shorthandsAndWaitLoops : Obligations.ShorthandsAndWaitLoops := by
  refine ⟨by decide, fun x => ?push, by decide, fun r v => ?rdwr, fun c => rfl, fun s => ⟨s.statusWord, rfl, ?_⟩⟩
  case push => rw [push_fields]; rfl
  case rdwr => constructor <;> rw [fields_eq_assemble] <;> rfl
  simp only [ends_statusWord]
  refine ⟨?idle, trivial, inReady_iff s, ?outValid, ?closed⟩
  case idle => cases h : s.st <;> simp [State.busy, h]
  case outValid => rw [outValid_iff]; bv_omega
  case closed => rw [Bool.not_eq_true', session_eq_false_iff]

end Sys2Proof.Machine
end

/-! PROOFS of the family 40_arith.md. First the rule of each datapath operation on numbers, then the statement. -/

section
namespace Sys2Proof.Machine

/-! ## The datapath operations on numbers -/

/-- R101: the sum mod 2^32; the carry is discarded. -/
@[simp] theorem add32_toNat (a b : Word) : (add32 a b).toNat = (a.toNat + b.toNat) % 2 ^ 32 :=
  BitVec.toNat_add a b

/-- R102: the library subtracts `b` from 2^32 first, the spec adds 2^32 to `a` first; as `b` is below 2^32, nothing is cut off in either. -/
@[simp] theorem sub32_toNat (a b : Word) : (sub32 a b).toNat = (a.toNat + 2 ^ 32 - b.toNat) % 2 ^ 32 := by
  have hb : b.toNat < 2 ^ 32 := b.isLt
  have hcomm : 2 ^ 32 - b.toNat + a.toNat = a.toNat + 2 ^ 32 - b.toNat := by omega
  rw [sub32, BitVec.toNat_sub, hcomm]

/-- R103, for every shift amount: from 32 on, the result is 0. -/
@[simp] theorem shl32_toNat (a : Word) (n : Nat) : (shl32 a n).toNat = a.toNat * 2 ^ n % 2 ^ 32 := by
  rw [shl32, BitVec.toNat_shiftLeft, Nat.shiftLeft_eq]

/-- R104, for every shift amount: the zero fill is the floor of the division. -/
@[simp] theorem shr32_toNat (a : Word) (n : Nat) : (shr32 a n).toNat = a.toNat / 2 ^ n := by
  rw [shr32, BitVec.toNat_ushiftRight, Nat.shiftRight_eq_div_pow]

/-- R105: bit by bit; above bit 31 both sides are 0. -/
@[simp] theorem xor32_getLsbD (a b : Word) (i : Nat) : (xor32 a b).getLsbD i = (a.getLsbD i != b.getLsbD i) :=
  BitVec.getLsbD_xor

/-- R107: the lanes of a Block do not mix. -/
theorem xorB_lanes (a b : Block) : xorB a b = ⟨xor32 a.l b.l, xor32 a.r b.r⟩ := rfl

/-! ## The statement -/

/-- Settles O20: each operation by its rule on numbers, XOR by its bits and by its lanes. -/
theorem datapathArithmeticOnNumbers : Obligations.DatapathArithmeticOnNumbers :=
  ⟨add32_toNat, sub32_toNat, shl32_toNat, shr32_toNat, xor32_getLsbD, xorB_lanes⟩

end Sys2Proof.Machine
end

/-! PROOFS of the family 41_tea.md. First the rules of the mixing function and of one round on numbers, then the sum after `n` rounds and
the cancelling of `n` rounds, then the statements. -/

section
namespace Sys2Proof.Machine

/-! ## The mixing function and one round on numbers -/

@[simp] theorem xor32_toNat (a b : Word) : (xor32 a b).toNat = a.toNat ^^^ b.toNat :=
  BitVec.toNat_xor a b

/-- R120: the left shift by 4 drops a multiple of 2^32, which the sum mod 2^32 after it drops as well. -/
theorem mixF_toNat (x s ka kb : Word) : (mixF x s ka kb).toNat =
    (x.toNat * 16 + ka.toNat) % 2 ^ 32 ^^^ (x.toNat + s.toNat) % 2 ^ 32 ^^^ (x.toNat / 32 + kb.toNat) % 2 ^ 32 := by
  simp only [mixF, xor32_toNat, add32_toNat, shl32_toNat, shr32_toNat, Nat.mod_add_mod, Nat.reducePow]

/-- R121, step 1: the sum rises by DELTA. -/
theorem encRound_sum (b : Block) (sum : Word) (k : Key) : (encRound b sum k).2 = add32 sum delta := rfl

/-- R121, step 2: L mixes with the old R, at the raised sum. -/
theorem encRound_l (b : Block) (sum : Word) (k : Key) :
    (encRound b sum k).1.l = add32 b.l (mixF b.r (encRound b sum k).2 k.k0 k.k1) := rfl

/-- R121, step 3: R mixes with the L of step 2. -/
theorem encRound_r (b : Block) (sum : Word) (k : Key) :
    (encRound b sum k).1.r = add32 b.r (mixF (encRound b sum k).1.l (encRound b sum k).2 k.k2 k.k3) := rfl

/-- R122, step 1: R is recovered with the old L, at the sum not yet lowered. -/
theorem decRound_r (b : Block) (sum : Word) (k : Key) :
    (decRound b sum k).1.r = sub32 b.r (mixF b.l sum k.k2 k.k3) := rfl

/-- R122, step 2: L is recovered with the R of step 1. -/
theorem decRound_l (b : Block) (sum : Word) (k : Key) :
    (decRound b sum k).1.l = sub32 b.l (mixF (decRound b sum k).1.r sum k.k0 k.k1) := rfl

/-- R122, step 3: the sum falls by DELTA. -/
theorem decRound_sum (b : Block) (sum : Word) (k : Key) : (decRound b sum k).2 = sub32 sum delta := rfl

theorem encRound_sum_toNat (b : Block) (sum : Word) (k : Key) :
    (encRound b sum k).2.toNat = (sum.toNat + 0x9E3779B9) % 2 ^ 32 := by
  rw [encRound_sum, add32_toNat, delta_toNat]

theorem decRound_sum_toNat (b : Block) (sum : Word) (k : Key) :
    (decRound b sum k).2.toNat = (sum.toNat + 2 ^ 32 - 0x9E3779B9) % 2 ^ 32 := by
  rw [decRound_sum, sub32_toNat, delta_toNat]

/-! ## The sum after `n` rounds -/

theorem encRounds_sum_toNat (k : Key) (n : Nat) (b : Block) (sum : Word) :
    (encRounds k n b sum).2.toNat = (sum.toNat + n * 0x9E3779B9) % 2 ^ 32 := by
  induction n with
  | zero => rw [encRounds, Nat.zero_mul, Nat.add_zero, Nat.mod_eq_of_lt sum.isLt]
  | succ n ih =>
    rw [encRounds, encRound_sum_toNat, ih]
    omega

/-- Stated with the falls added back, so that no subtraction has to be cut off at 0. -/
theorem decRounds_sum_toNat_add (k : Key) (n : Nat) (b : Block) (sum : Word) :
    ((decRounds k n b sum).2.toNat + n * 0x9E3779B9) % 2 ^ 32 = sum.toNat := by
  induction n with
  | zero => rw [decRounds, Nat.zero_mul, Nat.add_zero, Nat.mod_eq_of_lt sum.isLt]
  | succ n ih =>
    rw [decRounds, decRound_sum_toNat]
    omega

theorem sumDecInit_toNat : sumDecInit.toNat = 32 * 0x9E3779B9 % 2 ^ 32 := rfl

/-- 32 encryption rounds leave the sum where decryption begins (R109). -/
theorem encRounds_sum_final (k : Key) (b : Block) : (encRounds k 32 b 0).2 = sumDecInit := by
  apply BitVec.eq_of_toNat_eq
  rw [encRounds_sum_toNat, sumDecInit_toNat, BitVec.ofNat_eq_ofNat, BitVec.toNat_zero, Nat.zero_add]

/-- 32 decryption rounds leave the sum where encryption begins. -/
theorem decRounds_sum_final (k : Key) (b : Block) : (decRounds k 32 b sumDecInit).2 = 0 := by
  have hsum := decRounds_sum_toNat_add k 32 b sumDecInit
  rw [sumDecInit_toNat] at hsum
  apply BitVec.eq_of_toNat_eq
  rw [BitVec.ofNat_eq_ofNat, BitVec.toNat_zero]
  omega

/-! ## `n` rounds of one direction take back `n` rounds of the other -/

/-- The last encryption round meets the first decryption round, and the rest cancels by induction. -/
theorem decRounds_encRounds (k : Key) (n : Nat) (b : Block) (sum : Word) :
    decRounds k n (encRounds k n b sum).1 (encRounds k n b sum).2 = (b, sum) := by
  induction n with
  | zero => rfl
  | succ n ih => rw [decRounds_front, encRounds, decRound_encRound, ih]

theorem encRounds_decRounds (k : Key) (n : Nat) (b : Block) (sum : Word) :
    encRounds k n (decRounds k n b sum).1 (decRounds k n b sum).2 = (b, sum) := by
  induction n with
  | zero => rfl
  | succ n ih => rw [encRounds_front, decRounds, encRound_decRound, ih]

theorem decryptBlock_encryptBlock (b : Block) (k : Key) : decryptBlock (encryptBlock b k) k = b := by
  rw [decryptBlock, encryptBlock, ← encRounds_sum_final k b, decRounds_encRounds]

theorem encryptBlock_decryptBlock (b : Block) (k : Key) : encryptBlock (decryptBlock b k) k = b := by
  rw [encryptBlock, decryptBlock, ← decRounds_sum_final k b, encRounds_decRounds]

/-! ## The statements -/

/-- Settles O22: the sum that encryption round i mixes with is the one after i rounds; decryption round j mixes with the one after j - 1. -/
theorem sumFollowsTheSchedule : Obligations.SumFollowsTheSchedule := by
  refine ⟨fun k b i hpos _ => ?enc, fun k b j hpos hle => ?dec, rfl, rfl⟩
  case enc =>
    rw [add32_toNat, encRounds_sum_toNat, delta_toNat, BitVec.ofNat_eq_ofNat, BitVec.toNat_zero]
    omega
  case dec =>
    have hsum := decRounds_sum_toNat_add k (j - 1) b sumDecInit
    have hlt := (decRounds k (j - 1) b sumDecInit).2.isLt
    rw [sumDecInit_toNat] at hsum
    omega

/-- Settles O23: the rounds cancel pairwise, as each direction's last sum is the other's first. -/
theorem decryptInvertsEncrypt : Obligations.DecryptInvertsEncrypt := fun b k =>
  ⟨decryptBlock_encryptBlock b k, encryptBlock_decryptBlock b k, fun sum => decRound_encRound b sum k⟩

/-- Settles O21: each half-update is one addition or subtraction of F, by its rule on numbers. -/
theorem roundFunctionsOnNumbers : Obligations.RoundFunctionsOnNumbers := by
  refine ⟨mixF_toNat, fun b sum k => ⟨encRound_sum_toNat b sum k, ?_, ?_⟩, fun b sum k => ⟨?_, ?_, decRound_sum_toNat b sum k⟩⟩
  · rw [encRound_l, add32_toNat]
  · rw [encRound_r, add32_toNat]
  · rw [decRound_r, sub32_toNat]
  · rw [decRound_l, sub32_toNat]

end Sys2Proof.Machine
end

/-! PROOFS of the family 42_modes.md. First the rules of the modes' functions on the empty sequence and on a first block, then each mode's
round trip, then the statements. -/

section
namespace Sys2Proof.Machine

/-! ## The modes' functions block by block -/

@[simp] theorem cbcEncrypt_nil (k : Key) (prev : Block) : cbcEncrypt k [] prev = [] := rfl

@[simp] theorem cbcDecrypt_nil (k : Key) (prev : Block) : cbcDecrypt k [] prev = [] := rfl

/-- R142: the ciphertext block produced is the next `prev`. -/
@[simp] theorem cbcEncrypt_cons (k : Key) (p : Block) (ps : List Block) (prev : Block) :
    cbcEncrypt k (p :: ps) prev = encryptBlock (xorB p prev) k :: cbcEncrypt k ps (encryptBlock (xorB p prev) k) := rfl

/-- R143: the ciphertext block consumed is the next `prev`. -/
@[simp] theorem cbcDecrypt_cons (k : Key) (c : Block) (cs : List Block) (prev : Block) :
    cbcDecrypt k (c :: cs) prev = xorB (decryptBlock c k) prev :: cbcDecrypt k cs c := rfl

theorem modeFunction_nil (m : Mode) (d : Dir) (k : Key) (iv : Block) : modeFunction m d k iv [] = [] := by
  cases m <;> cases d <;> rfl

/-- R148 to R150: every mode function treats its first block as the transfer functions do, and the rest as from the next chain Block. -/
theorem modeFunction_cons (m : Mode) (d : Dir) (k : Key) (ch b : Block) (bs : List Block) :
    modeFunction m d k ch (b :: bs) =
      modeOut m d (primitive d (modeIn m d b ch) k) ch ::
        modeFunction m d k (chainNext m d (primitive d (modeIn m d b ch) k) b ch) bs := by
  cases m <;> cases d <;> rfl

/-! ## The round trips -/

/-- The blocks are independent in ECB, so the block primitive's inverse is applied to each. -/
theorem ecbDecrypt_ecbEncrypt (k : Key) (bs : List Block) : ecbDecrypt (ecbEncrypt bs k) k = bs := by
  have hblock : (fun c => decryptBlock c k) ∘ (fun b => encryptBlock b k) = id :=
    funext fun b => decryptBlock_encryptBlock b k
  rw [ecbDecrypt, ecbEncrypt, List.map_map, hblock, List.map_id]

/-- Both directions chain the same ciphertext block, so the XOR with `prev` cancels, for every `prev`. -/
theorem cbcDecrypt_cbcEncrypt (k : Key) (bs : List Block) (prev : Block) :
    cbcDecrypt k (cbcEncrypt k bs prev) prev = bs := by
  induction bs generalizing prev with
  | nil => rw [cbcEncrypt_nil, cbcDecrypt_nil]
  | cons p ps ih => rw [cbcEncrypt_cons, cbcDecrypt_cons, decryptBlock_encryptBlock, xorB_xorB_cancel, ih]

/-! ## The statements -/

/-- Settles O24: ECB by the inverse of the block primitive, CBC by induction over the sequence for every `prev`. -/
theorem modesRoundTrip : Obligations.ModesRoundTrip := fun k iv bs =>
  ⟨ecbDecrypt_ecbEncrypt k bs, cbcDecrypt_cbcEncrypt k bs iv⟩

/-- Settles O25, by induction over the sequence for every chain Block: both sides treat a first block alike. -/
theorem transferFunctionsAgreeWithModes : Obligations.TransferFunctionsAgreeWithModes := by
  intro m d k iv bs
  induction bs generalizing iv with
  | nil => rw [transferRun, modeFunction_nil]
  | cons b bs ih => rw [transferRun, modeFunction_cons, ih]

end Sys2Proof.Machine
end

/-! PROOFS of the family 43_codec.md. First the packing of bytes into Words and Blocks and back, then the lengths of a padded and of an encoded
sequence, then the round trip block by block, then the statements. -/

section
namespace Sys2Proof.Machine

/-! ## Bytes, Words and Blocks -/

/-- The left part of a concatenation is the high part, in powers of two. -/
theorem toNat_append_eq_add {m n : Nat} (x : BitVec m) (y : BitVec n) :
    (x ++ y).toNat = x.toNat * 2 ^ n + y.toNat := by
  rw [BitVec.toNat_append, ← Nat.shiftLeft_add_eq_or_of_lt y.isLt, Nat.shiftLeft_eq]

/-- R160: the bytes are the digits in base 256 of the Word, the first the most significant. -/
theorem wordOfBytes_toNat (x0 x1 x2 x3 : Byte) :
    (wordOfBytes x0 x1 x2 x3).toNat = x0.toNat * 2 ^ 24 + x1.toNat * 2 ^ 16 + x2.toNat * 2 ^ 8 + x3.toNat := by
  rw [wordOfBytes, toNat_append_eq_add, toNat_append_eq_add, toNat_append_eq_add]
  omega

/-- R161 takes back R160. -/
theorem bytesOfWord_wordOfBytes (x0 x1 x2 x3 : Byte) : bytesOfWord (wordOfBytes x0 x1 x2 x3) = [x0, x1, x2, x3] := by
  obtain ⟨h0, h1, h2, h3⟩ := byteOfWord_wordOfBytes x0 x1 x2 x3
  rw [bytesOfWord, h0, h1, h2, h3]

/-- R163, in terms of R161. -/
theorem bytesOfBlock_toList (b : Block) : (bytesOfBlock b).toList = bytesOfWord b.l ++ bytesOfWord b.r := rfl

/-- Eight bytes, written out one by one. -/
theorem toList_eq_bytes (x : Vector Byte 8) : x.toList = [x[0], x[1], x[2], x[3], x[4], x[5], x[6], x[7]] := by
  have hx : x = #v[x[0], x[1], x[2], x[3], x[4], x[5], x[6], x[7]] := by
    ext i hi
    interval_cases i <;> rfl
  exact congrArg Vector.toList hx

theorem blockOfBytes_bytesOfBlock (b : Block) : blockOfBytes (bytesOfBlock b) = b :=
  congrArg₂ Block.mk (wordOfBytes_byteOfWord b.l) (wordOfBytes_byteOfWord b.r)

theorem bytesOfBlock_blockOfBytes (x : Vector Byte 8) : bytesOfBlock (blockOfBytes x) = x := by
  apply Vector.toList_inj.mp
  rw [bytesOfBlock_toList, blockOfBytes, bytesOfWord_wordOfBytes, bytesOfWord_wordOfBytes, toList_eq_bytes]
  rfl

/-! ## Lengths -/

@[simp] theorem blocksToBytes_cons (b : Block) (bs : List Block) :
    blocksToBytes (b :: bs) = (bytesOfBlock b).toList ++ blocksToBytes bs := rfl

/-- R166 never truncates: 8 bytes for each Block. -/
theorem length_blocksToBytes (bs : List Block) : (blocksToBytes bs).length = 8 * bs.length := by
  induction bs with
  | nil => rfl
  | cons b bs ih =>
    rw [blocksToBytes_cons, List.length_append, Vector.length_toList, ih, List.length_cons]
    omega

/-- R164: the padded length is the length rounded up to a multiple of 8. -/
theorem length_pad (data : List Byte) : (pad data).length = 8 * ((data.length + 7) / 8) := by
  rw [pad, List.length_append, List.length_replicate]
  omega

/-- R164: the padding stands on the right. -/
theorem take_length_pad (data : List Byte) : (pad data).take data.length = data := List.take_left

/-! ## The round trip -/

@[simp] theorem chunks_nil : chunks [] = [] := rfl

/-- R165: the first 8 bytes are the first Block. -/
theorem chunks_append (x : Vector Byte 8) (rest : List Byte) : chunks (x.toList ++ rest) = blockOfBytes x :: chunks rest := by
  rw [toList_eq_bytes]
  rfl

/-- A sequence of at least 8 bytes, cut after the eighth. -/
theorem exists_eq_toList_append {xs : List Byte} (h : 8 ≤ xs.length) :
    ∃ (x : Vector Byte 8) (rest : List Byte), xs = x.toList ++ rest :=
  ⟨⟨(xs.take 8).toArray, by simp [h]⟩, xs.drop 8, by simp⟩

/-- On whole chunks the two conversions undo each other, by induction on their number. -/
theorem blocksToBytes_chunks {n : Nat} {xs : List Byte} (h : xs.length = 8 * n) : blocksToBytes (chunks xs) = xs := by
  induction n generalizing xs with
  | zero => rw [List.eq_nil_of_length_eq_zero h, chunks_nil, blocksToBytes_nil]
  | succ n ih =>
    obtain ⟨x, rest, rfl⟩ := exists_eq_toList_append (xs := xs) (by omega)
    have hrest : rest.length = 8 * n := by
      rw [List.length_append, Vector.length_toList] at h
      omega
    rw [chunks_append, blocksToBytes_cons, bytesOfBlock_blockOfBytes, ih hrest]

/-- R168: the round trip gives the padded sequence. -/
theorem blocksToBytes_bytesToBlocks (data : List Byte) : blocksToBytes (bytesToBlocks data).1 = pad data :=
  blocksToBytes_chunks (length_pad data)

/-- The number of Blocks, from the round trip: their bytes are the padded ones. -/
theorem length_bytesToBlocks (data : List Byte) : (bytesToBlocks data).1.length = (data.length + 7) / 8 := by
  have h := length_blocksToBytes (bytesToBlocks data).1
  rw [blocksToBytes_bytesToBlocks, length_pad] at h
  omega

/-! ## The statements -/

/-- Settles O27: the round trip by induction over the padded sequence's chunks; the number of Blocks follows from it. -/
theorem codecRoundTripAndLengths : Obligations.CodecRoundTripAndLengths := fun data bs =>
  ⟨blocksToBytes_bytesToBlocks data, take_length_pad data, length_pad data, length_bytesToBlocks data, rfl, length_blocksToBytes bs⟩

/-- Settles O28: a Word's bytes are its digits in base 256, and a Block is its two Words. -/
theorem bytesAndWordsConvertBothWays : Obligations.BytesAndWordsConvertBothWays :=
  ⟨fun x0 x1 x2 x3 => ⟨wordOfBytes_toNat x0 x1 x2 x3, bytesOfWord_wordOfBytes x0 x1 x2 x3⟩,
    fun b => ⟨blockOfBytes_bytesOfBlock b, bytesOfBlock_toList b⟩, bytesOfBlock_blockOfBytes⟩

end Sys2Proof.Machine
end

/-! PROOFS of the family 44_host_registers.md. First the rules about a single transaction that the statements need: every one answers a next state
and leaves the schedule alone (R211), a rejected one only records its error (R180), and what the two codec ports answer (R196, R197). Then the
statements. -/

section
namespace Sys2Proof.Machine

variable {s t : State}

/-! ## A transaction completes in its step (R211) -/

/-- No instruction stops the machine: each ends in a next state, refused or not. -/
theorem exists_exec_next (i : Instr) (s : State) : ∃ t, exec i s = .next t := by
  cases i with
  | rdDout =>
    simp only [exec, execRdDout]
    split <;> exact ⟨_, rfl⟩
  | wrDin d =>
    simp only [exec, execWrDin]
    repeat' split
    all_goals exact ⟨_, rfl⟩
  | start =>
    simp only [exec, execStart]
    repeat' split
    all_goals exact ⟨_, rfl⟩
  | finish =>
    simp only [exec, execFinish]
    split <;> exact ⟨_, rfl⟩
  | _ => exact ⟨_, rfl⟩

theorem exists_hostTransaction_next (w : Transaction) (s : State) : ∃ t, hostTransaction w s = .next t := by
  obtain ⟨i, -, he⟩ | ⟨why, -, he⟩ := hostTransaction_cases s w
  · rw [he]
    exact exists_exec_next i s
  · exact ⟨_, he⟩

/-- No instruction changes the schedule. -/
theorem Effect.inputs_eq {i : Instr} (e : Effect s i t) : t.inputs = s.inputs := by
  cases e <;> rfl

theorem inputs_of_hostTransaction {w : Transaction} (h : hostTransaction w s = .next t) : t.inputs = s.inputs := by
  obtain ⟨i, -, he⟩ | ⟨why, -, rfl⟩ := hostTransaction_effect s h
  · exact he.inputs_eq
  · obtain ⟨-, e⟩ | ⟨-, e⟩ := reject_cases s why w.isWrite <;> rw [e]
    · exact raise_inputs s _
    · exact (answer_inputs _ _).trans (raise_inputs s _)

/-! ## A rejected transaction (R180) -/

/-- A word that fails a check of R86 is rejected, by the first three checks as BAD_ACCESS and by the last as ILLEGAL_CMD. -/
theorem decode_of_not_wf {w : Transaction} (h : w.wf = false) :
    decode w = .error (if w.aligned && w.mapped && w.writable then .illegalCmd else .badAccess) := by
  obtain ⟨hbad, hd⟩ | ⟨⟨ha, hm, hw⟩, -, hd⟩ | ⟨-, -, i, hd⟩ := decode_cases w
  · have hand : (w.aligned && w.mapped && w.writable) = false := by
      rw [Bool.and_eq_false_iff, Bool.and_eq_false_iff, or_assoc]
      exact hbad
    rw [hd, hand]
    rfl
  · rw [hd, ha, hm, hw]
    rfl
  · rw [wf_of_decode hd] at h
    cases h

/-- The whole frame of a rejection: the error flag and its code, and RDATA for a read. -/
theorem reject_eq (s : State) (why : Reject) (w : Bool) :
    s.reject why w = { s with
      err := true, errCode := if s.err then s.errCode else Reject.code why, rdata := if w then s.rdata else some 0 } := by
  cases w <;> rfl

/-! ## The operands -/

/-- R183: the three bits of CTRL as a number. -/
theorem wordOfCtrl_toNat (c : Ctrl) :
    (wordOfCtrl c).toNat = (if c.mode = .cbc then 1 else 0) + (if c.dir = .dec then 2 else 0) + (if c.ie then 4 else 0) := by
  obtain ⟨mode, dir, ie⟩ := c
  cases mode <;> cases dir <;> cases ie <;> rfl

/-- R83: the byte is zero-extended. -/
theorem zextByte_toNat (x : Byte) : (zextByte x).toNat = x.toNat :=
  BitVec.toNat_setWidth_of_le (by decide)

/-! ## The codec ports (R196, R197) -/

/-- R196, the first check, in terms of st. -/
theorem exec_wrDin_of_no_session (d : Word) (h : ¬ (s.st = .sessWait ∨ s.st = .sessRun) ∨ s.fin = true) :
    exec (.wrDin d) s = .next (s.raise .noSession) := by
  rw [← session_iff, Bool.not_eq_true] at h
  exact if_pos h

theorem exec_wrDin_of_session (d : Word) (hs : s.session = true) (hf : s.fin = false) :
    exec (.wrDin d) s =
      if s.len = 0xFFFFFFFF#32 then .next (s.raise .lenOverflow)
      else if s.pcnt = 8#4 then .next (s.raise .overrun)
      else .next (s.pushByte (byteOperand d)) :=
  if_neg (by simp [hs, hf])

theorem exec_rdDout_of_empty (h : s.ocnt = 0#4) : exec .rdDout s = .next ((s.raise .underrun).answer 0) :=
  if_pos h

theorem exec_rdDout_of_filled (h : s.ocnt ≠ 0#4) : exec .rdDout s = .next (s.popByte.answer (zextByte s.nextOut)) :=
  if_neg h

/-! ## The statements -/

/-- Settles O5: the failed check names the rejection, and the rejection has the stated frame. -/
theorem illegalTransactionOnlyRecordsItsError : Obligations.IllegalTransactionOnlyRecordsItsError := by
  intro s w rest hin hwf
  rw [step_of_host s hin, hostTransaction_of_error _ (decode_of_not_wf hwf), reject_eq, ← Transaction.writes_eq_isWrite,
    apply_ite Reject.code]
  rfl

/-- Settles O30: each read's row, whatever WDATA, and its constant, which is the meaning of the row. -/
theorem constantReads : Obligations.ConstantReads := by
  intro s d
  have hread (r : Reg) := decode_read_fields r d
  exact ⟨⟨hread .id, rfl⟩, ⟨hread .cmd, rfl⟩, ⟨hread .key0, rfl⟩, ⟨hread .key1, rfl⟩, ⟨hread .key2, rfl⟩, ⟨hread .key3, rfl⟩,
    ⟨hread .din, rfl⟩⟩

/-- Settles O31: each read's row, whatever WDATA, and its register; CTRL's value by its bits. -/
theorem registerReads : Obligations.RegisterReads := by
  intro s d
  have hread (r : Reg) := decode_read_fields r d
  exact ⟨⟨hread .ctrl, _, rfl, wordOfCtrl_toNat s.ctrl⟩, ⟨hread .ivL, rfl⟩, ⟨hread .ivR, rfl⟩, ⟨hread .blkL, rfl⟩, ⟨hread .blkR, rfl⟩,
    ⟨hread .len, rfl⟩, ⟨hread .nblk, rfl⟩, ⟨hread .chainL, rfl⟩, ⟨hread .chainR, rfl⟩⟩

/-- Settles O33: WR_CTRL is never locked, so its one update is its meaning in every state. -/
theorem ctrlWriteSetsItsThreeBits : Obligations.CtrlWriteSetsItsThreeBits := fun _ d =>
  ⟨decode_write_fields .ctrl d rfl nofun, rfl⟩

/-- Settles O34: each row is its update under `lockedWrite`, whose two branches are the stated ones. -/
theorem keyWrites : Obligations.KeyWrites := by
  intro s d
  have hwrite (r : Reg) := decode_write_fields r d
  exact ⟨⟨hwrite .key0 rfl nofun, rfl⟩, ⟨hwrite .key1 rfl nofun, rfl⟩, ⟨hwrite .key2 rfl nofun, rfl⟩, ⟨hwrite .key3 rfl nofun, rfl⟩⟩

/-- Settles O35: as for the key, each row is its update under `lockedWrite`. -/
theorem ivAndBlockWrites : Obligations.IvAndBlockWrites := by
  intro s d
  have hwrite (r : Reg) := decode_write_fields r d
  exact ⟨⟨hwrite .ivL rfl nofun, rfl⟩, ⟨hwrite .ivR rfl nofun, rfl⟩, ⟨hwrite .blkL rfl nofun, rfl⟩, ⟨hwrite .blkR rfl nofun, rfl⟩⟩

/-- Settles O37: the three checks in their order, and the push, whose counters do not wrap because the checks passed. -/
theorem dinPushStoresOrRefuses : Obligations.DinPushStoresOrRefuses := by
  intro s d raised inSession
  have hexec (hs : inSession) (hf : s.fin = false) := exec_wrDin_of_session d ((session_iff s).mpr hs) hf
  have hmax : s.len = 0xFFFFFFFF#32 ↔ s.len.toNat = 2 ^ 32 - 1 := BitVec.toNat_inj.symm
  refine ⟨decode_write_fields .din d rfl nofun, exec_wrDin_of_no_session d, fun hs hf hl => ?overflow, fun hs hf hl hp => ?overrun,
    fun hs hf hl hp => ?push⟩
  case overflow =>
    rw [hexec hs hf, if_pos (hmax.mpr hl)]
    rfl
  case overrun =>
    rw [hexec hs hf, if_neg (mt hmax.mp hl.ne), if_pos hp]
    rfl
  case push =>
    have hfull : s.pcnt ≠ 8#4 := by bv_omega
    refine ⟨s.pushByte (byteOperand d), ?_, pushByte_pack_get s _, ?_, ?_, rfl⟩
    · rw [hexec hs hf, if_neg (mt hmax.mp hl.ne), if_neg hfull]
    · rw [pushByte_pcnt]
      bv_omega
    · rw [pushByte_len]
      bv_omega

/-- Settles O38: an empty buffer answers 0 and records UNDERRUN; otherwise the byte at the head of OBUF is answered and popped. -/
theorem doutPopReturnsTheNextByte : Obligations.DoutPopReturnsTheNextByte := by
  intro s
  refine ⟨decode_read_fields .dout, exec_rdDout_of_empty, fun i hi => ⟨zextByte s.nextOut, ?_, ?_⟩⟩
  · have hfilled : s.ocnt ≠ 0#4 := by
      have := i.isLt
      bv_omega
    exact exec_rdDout_of_filled hfilled
  · rw [zextByte_toNat, nextOut_eq s i hi]

/-- Settles O43: a transaction always answers a next state, and it leaves the rest of the schedule, which `step` hands it, as it is. -/
theorem transactionNeverWaits : Obligations.TransactionNeverWaits := by
  intro s w rest hin
  obtain ⟨t, ht⟩ := exists_hostTransaction_next w (s.withInputs rest)
  exact ⟨t, (step_of_host s hin).trans ht, inputs_of_hostTransaction ht⟩

end Sys2Proof.Machine
end

/-! PROOFS of the family 45_commands.md. First what a block command, START and FINISH answer under each of their checks, then the statements. -/

section
namespace Sys2Proof.Machine

variable {s : State}

/-! ## The block commands (R221, R222) -/

theorem blockCommand_of_not_idle (d : Dir) (hst : s.st ≠ .idle) : s.blockCommand d = s.raise .busy := by
  rw [State.blockCommand, if_pos hst]

theorem blockCommand_of_idle (d : Dir) (hst : s.st = .idle) :
    s.blockCommand d = if s.keyOk ≠ 0b1111#4 then s.raise .keyMalformed else s.beginBlock d := by
  rw [State.blockCommand, if_neg (not_not_intro hst)]

theorem blockCommand_of_malformed_key (d : Dir) (hst : s.st = .idle) (hkey : s.keyOk ≠ 0b1111#4) :
    s.blockCommand d = s.raise .keyMalformed := by
  rw [blockCommand_of_idle d hst, if_pos hkey]

theorem blockCommand_of_key (d : Dir) (hst : s.st = .idle) (hkey : s.keyOk = 0b1111#4) : s.blockCommand d = s.beginBlock d := by
  rw [blockCommand_of_idle d hst, if_neg (not_not_intro hkey)]

/-- R221: ENC_BLOCK is the block command in the direction of encryption, whatever CTRL says. -/
theorem exec_encBlock (s : State) : exec .encBlock s = .next (s.blockCommand .enc) := rfl

/-- R222: DEC_BLOCK is the block command in the direction of decryption, whatever CTRL says. -/
theorem exec_decBlock (s : State) : exec .decBlock s = .next (s.blockCommand .dec) := rfl

/-! ## START (R224): each check, once the earlier ones have passed -/

theorem exec_start_of_not_idle (hst : s.st ≠ .idle) : exec .start s = .next (s.raise .busy) :=
  if_pos hst

/-- In IDLE with the output read, the checks of the key and of the IV are left. -/
theorem exec_start_of_output_read (hst : s.st = .idle) (hout : s.ocnt = 0#4) :
    exec .start s =
      if s.keyOk ≠ 0b1111#4 then .next (s.raise .keyMalformed)
      else if s.ctrl.mode = .cbc ∧ s.ivOk ≠ 0b11#2 then .next (s.raise .ivMalformed)
      else .next s.openSession := by
  rw [exec, execStart, if_neg (not_not_intro hst), if_neg (not_not_intro hout)]

theorem exec_start_of_output_pending (hst : s.st = .idle) (hout : s.ocnt ≠ 0#4) :
    exec .start s = .next (s.raise .outputPending) := by
  rw [exec, execStart, if_neg (not_not_intro hst), if_pos hout]

theorem exec_start_of_malformed_key (hst : s.st = .idle) (hout : s.ocnt = 0#4) (hkey : s.keyOk ≠ 0b1111#4) :
    exec .start s = .next (s.raise .keyMalformed) := by
  rw [exec_start_of_output_read hst hout, if_pos hkey]

theorem exec_start_of_malformed_iv (hst : s.st = .idle) (hout : s.ocnt = 0#4) (hkey : s.keyOk = 0b1111#4) (hmode : s.ctrl.mode = .cbc)
    (hiv : s.ivOk ≠ 0b11#2) : exec .start s = .next (s.raise .ivMalformed) := by
  rw [exec_start_of_output_read hst hout, if_neg (not_not_intro hkey), if_pos ⟨hmode, hiv⟩]

theorem exec_start_of_acceptsStart (h : s.acceptsStart) : exec .start s = .next s.openSession := by
  obtain ⟨hst, hout, hkey, hiv⟩ := h
  rw [exec_start_of_output_read hst hout, if_neg (not_not_intro hkey), if_neg fun ⟨hmode, hbad⟩ => hbad (hiv hmode)]

/-! ## FINISH (R225) -/

theorem exec_finish_of_session (hs : s.session = true) : exec .finish s = .next s.endInput :=
  if_neg (by simp [hs])

theorem exec_finish_of_no_session (hs : s.session = false) : exec .finish s = .next (s.raise .noSession) :=
  if_pos hs

/-- A second FINISH has nothing left to set. -/
theorem endInput_of_fin (hfin : s.fin = true) : s.endInput = s := by
  rw [State.endInput, ← hfin]

/-! ## The statements -/

/-- Settles O39: both commands are one block command in their own direction, with its two checks and its start. -/
theorem blockCommandsStartOrRefuse : Obligations.BlockCommandsStartOrRefuse := by
  intro s raised
  obtain ⟨-, -, -, hencRow, hdecRow, -⟩ := rowsByTheirFields
  simp only [exec_encBlock, exec_decBlock]
  refine ⟨⟨hencRow, hdecRow⟩, fun hst => ?busy, fun hst hkey => ?malformed, fun hst hkey => ?starts⟩
  case busy => simp only [blockCommand_of_not_idle _ hst]; exact ⟨rfl, rfl⟩
  case malformed => simp only [blockCommand_of_malformed_key _ hst hkey]; exact ⟨rfl, rfl⟩
  case starts => simp only [blockCommand_of_key _ hst hkey]; exact ⟨rfl, rfl⟩

/-- Settles O40: the four checks in their order, and the opened session; in ECB the check of the IV does not apply. -/
theorem startOpensTheSessionOrRefuses : Obligations.StartOpensTheSessionOrRefuses := by
  intro s raised
  obtain ⟨-, -, -, -, -, hrow, -⟩ := rowsByTheirFields
  refine ⟨hrow, exec_start_of_not_idle, exec_start_of_output_pending, exec_start_of_malformed_key, exec_start_of_malformed_iv,
    fun hst hout hkey hiv => exec_start_of_acceptsStart ⟨hst, hout, hkey, fun hcbc => ?_⟩⟩
  obtain hecb | hiv := hiv
  · cases hecb.symm.trans hcbc
  · exact hiv

/-- Settles O41: NOP is the identity, and FINISH asks only whether a session is open. -/
theorem nopAndFinish : Obligations.NopAndFinish := by
  intro s
  obtain ⟨-, -, hnopRow, -, -, -, hfinishRow, -⟩ := rowsByTheirFields
  refine ⟨⟨hnopRow, hfinishRow⟩, rfl, fun hs => ?session, fun hs => ?noSession⟩
  case session =>
    have hexec : exec .finish s = .next s.endInput := exec_finish_of_session ((session_iff s).mpr hs)
    refine ⟨hexec, fun hfin => ?_⟩
    rw [hexec, endInput_of_fin hfin]
  case noSession => exact exec_finish_of_no_session ((session_eq_false_iff s).mpr hs)

/-- Settles O42: neither command has a check, so its one update of the state is its meaning in every state. -/
theorem abortAndClrstat : Obligations.AbortAndClrstat := by
  intro s
  obtain ⟨-, -, -, -, -, -, -, habortRow, hclrstatRow⟩ := rowsByTheirFields
  exact ⟨⟨habortRow, hclrstatRow⟩, rfl, rfl⟩

end Sys2Proof.Machine
end

/-! PROOFS of the family 46_sequencer.md. First the core's step, once: the enabled row of R240 is the one taken, and a turn of the core carries
along what its step does not read; then the statements about single core steps. Then `n` rounds of a direction, what a transaction can do
while the block works, and the block command under every interleaving (R261), by induction over the schedule. Last the session (R262): what a
turn of it can do, the order of reads, and the invariant of an open session, read off at its close. -/

section
namespace Sys2Proof.Machine

variable {s s0 t : State}

/-! ## The enabled step is the step taken (R240, R250) -/

/-- No row above an enabled one in R240's table is enabled, so the search stops at it. -/
theorem coreStep?_of_enabled {c : CoreStep} (h : c.enabled s = true) : s.coreStep? = some c := by
  cases c with
  | blkRound => simp [State.coreStep?, CoreStep.rows, h]
  | blkDone =>
    obtain ⟨hst, hr⟩ := (blkDone_enabled_iff s).mp h
    simp [State.coreStep?, CoreStep.rows, CoreStep.enabled, hst, hr]
  | sessTake =>
    obtain ⟨hst, -⟩ := (sessTake_enabled_iff s).mp h
    have hblk : CoreStep.blkRound.enabled s = false ∧ CoreStep.blkDone.enabled s = false := by simp [CoreStep.enabled, hst]
    simp [State.coreStep?, CoreStep.rows, h, hblk]
  | sessRound =>
    obtain ⟨hst, hr⟩ := (sessRound_enabled_iff s).mp h
    simp [State.coreStep?, CoreStep.rows, CoreStep.enabled, hst, hr]
  | sessEmit =>
    obtain ⟨hst, hr, ho⟩ := (sessEmit_enabled_iff s).mp h
    simp [State.coreStep?, CoreStep.rows, CoreStep.enabled, hst, hr, ho]
  | sessClose =>
    obtain ⟨hst, hf, hp⟩ := (sessClose_enabled_iff s).mp h
    simp [State.coreStep?, CoreStep.rows, CoreStep.enabled, hst, hf, hp]

theorem coreStep?_eq_some_iff (c : CoreStep) : s.coreStep? = some c ↔ c.enabled s = true :=
  ⟨enabled_of_coreStep? s, coreStep?_of_enabled⟩

theorem coreTurn_of_enabled {c : CoreStep} (h : c.enabled s = true) : s.coreTurn = c.perform s := by
  rw [State.coreTurn, coreStep?_of_enabled h]

/-- The step of a core turn, from the row that is enabled once the turn is taken off the schedule. -/
theorem step_of_enabled {rest : List Turn} (hn : s.coreNext rest) {c : CoreStep} (h : c.enabled s = true) :
    step s = .next (c.perform (s.withInputs rest)) := by
  have h' : c.enabled (s.withInputs rest) = true := h
  rw [step_of_coreNext s hn, coreTurn_of_enabled h']

/-- The three holds of R240. -/
theorem coreStep?_of_hold (h : s.st = .idle ∨ (s.st = .sessWait ∧ s.fin = false ∧ s.pcnt < 8#4) ∨
    (s.st = .sessRun ∧ s.rnd = 32#6 ∧ 0#4 < s.ocnt)) : s.coreStep? = none := by
  rw [Option.eq_none_iff_forall_ne_some]
  intro c hc
  have hen := enabled_of_coreStep? s hc
  obtain hst | ⟨hst, hf, hp⟩ | ⟨hst, hr, ho⟩ := h
  · cases c <;> simp [CoreStep.enabled, hst] at hen
  · have hfull : s.pcnt ≠ 8#4 := by bv_omega
    cases c <;> simp [CoreStep.enabled, hst, hf, hfull] at hen
  · have hunread : s.ocnt ≠ 0#4 := by bv_omega
    cases c <;> simp [CoreStep.enabled, hst, hr, hunread] at hen

/-! ## What a core turn does not read (R251) -/

/-- An update that neither enables nor disables a step and that the enabled step carries along, the whole turn carries along. -/
theorem coreTurn_comm (f : State → State) (hen : (f s).coreStep? = s.coreStep?)
    (hperform : ∀ c : CoreStep, c.enabled s = true → c.perform (f s) = f (c.perform s)) : (f s).coreTurn = f s.coreTurn := by
  cases h : s.coreStep? with
  | none => simp only [State.coreTurn, hen, h]
  | some c => simp only [State.coreTurn, hen, h, hperform c (enabled_of_coreStep? s h)]

/-- Other values in CTRL, IV, KEY_OK and IV_OK. -/
def State.withConfig (c : Ctrl) (v : Block) (ko : BitVec 4) (vo : BitVec 2) (s : State) : State :=
  { s with ctrl := c, iv := v, keyOk := ko, ivOk := vo }

/-- Another key. -/
def State.withKey (k : Key) (s : State) : State := { s with key := k }

theorem coreTurn_withConfig (c : Ctrl) (v : Block) (ko : BitVec 4) (vo : BitVec 2) :
    (s.withConfig c v ko vo).coreTurn = s.coreTurn.withConfig c v ko vo :=
  coreTurn_comm (State.withConfig c v ko vo) rfl fun step _ => by cases step <;> rfl

/-- Only a round reads the key, and no round is enabled here. -/
theorem coreTurn_withKey (k : Key) (h : ¬ ((s.st = .blkRun ∨ s.st = .sessRun) ∧ s.rnd < 32#6)) :
    (s.withKey k).coreTurn = s.coreTurn.withKey k := by
  refine coreTurn_comm (State.withKey k) rfl fun step hen => ?_
  cases step with
  | blkRound =>
    obtain ⟨hst, hr⟩ := (blkRound_enabled_iff s).mp hen
    exact absurd ⟨.inl hst, hr⟩ h
  | sessRound =>
    obtain ⟨hst, hr⟩ := (sessRound_enabled_iff s).mp hen
    exact absurd ⟨.inr hst, hr⟩ h
  | blkDone | sessTake | sessEmit | sessClose => rfl

/-- R251, R279: no core step raises an error. -/
theorem coreTurn_err (s : State) : s.coreTurn.err = s.err ∧ s.coreTurn.errCode = s.errCode := by
  obtain ⟨h, -⟩ | ⟨c, -, h⟩ := coreTurn_cases s <;> rw [h]
  · exact ⟨rfl, rfl⟩
  · cases c <;> exact ⟨rfl, rfl⟩

/-! ## The step's operands, written out (R109, R148 to R150) -/

theorem sumInit_eq (d : Dir) : sumInit d = if d = .enc then 0 else 0xC6EF3720 := by
  cases d <;> rfl

theorem modeIn_eq (m : Mode) (d : Dir) (b ch : Block) :
    modeIn m d b ch = if m = .cbc ∧ d = .enc then ⟨b.l ^^^ ch.l, b.r ^^^ ch.r⟩ else b := by
  cases m <;> cases d <;> rfl

theorem modeOut_eq (m : Mode) (d : Dir) (wf ch : Block) :
    modeOut m d wf ch = if m = .cbc ∧ d = .dec then ⟨wf.l ^^^ ch.l, wf.r ^^^ ch.r⟩ else wf := by
  cases m <;> cases d <;> rfl

theorem chainNext_eq (m : Mode) (d : Dir) (wf inb ch : Block) :
    chainNext m d wf inb ch = if m = .ecb then ch else if d = .enc then wf else inb := by
  cases m <;> cases d <;> rfl

/-! ## The statements about single core steps -/

/-- Settles O13: two enabled steps are both the one that the search answers, which in a hold is none. -/
theorem coreStepsAreExclusive : Obligations.CoreStepsAreExclusive := by
  refine ⟨fun s c d hc hd => ?_, fun s c => coreStep?_eq_some_iff c, fun s => coreStep?_of_hold⟩
  exact Option.some.inj ((coreStep?_of_enabled hc).symm.trans (coreStep?_of_enabled hd))

/-- Settles O14: both rounds perform `roundStep`, whose round is the one of `cdir`. -/
theorem coreRoundPerformsOneRound : Obligations.CoreRoundPerformsOneRound := by
  intro s rest hn hst hr
  have hstep : step s = .next (s.withInputs rest).roundStep := by
    rw [step_of_coreNext s hn, coreTurn_of_round (s.withInputs rest) hst hr]
  constructor <;>
  · intro hd
    rw [hstep, State.roundStep, withInputs_cdir, hd]
    rfl

/-- Settles O15: the two rows that end an operation. -/
theorem coreDoneAndCloseGoToIdle : Obligations.CoreDoneAndCloseGoToIdle :=
  ⟨fun s _ hn hst hr => step_of_enabled hn ((blkDone_enabled_iff s).mpr ⟨hst, hr⟩),
    fun s _ hn hst hf hp => step_of_enabled hn ((sessClose_enabled_iff s).mpr ⟨hst, hf, hp⟩)⟩

/-- Settles O16: the enabled row is the take, with its Block, `mode_in` and initial sum written out. -/
theorem coreTakesThePaddedBlock : Obligations.CoreTakesThePaddedBlock := by
  intro s rest hn hst hp x b
  rw [step_of_enabled hn ((sessTake_enabled_iff s).mpr ⟨hst, hp⟩), CoreStep.perform, State.takeInput, takeBlock_eq, modeIn_eq, sumInit_eq]
  rfl

/-- Settles O17: the enabled row is the emit, with `mode_out`, its bytes and `chain_next` written out. -/
theorem coreEmitsTheOutputBlock : Obligations.CoreEmitsTheOutputBlock := by
  intro s rest hn hst hr ho o
  rw [step_of_enabled hn ((sessEmit_enabled_iff s).mpr ⟨hst, hr, ho⟩), CoreStep.perform, State.emitOutput, modeOut_eq, chainNext_eq]
  rfl

/-- Settles O19: a core turn commutes with a change of the configuration, and with a change of the key where it is no round. -/
theorem coreRaisesNothingAndReadsNoConfiguration : Obligations.CoreRaisesNothingAndReadsNoConfiguration := by
  intro s t rest hn hstep
  rw [step_of_coreNext s hn] at hstep
  obtain rfl := Host.Outcome.next.inj hstep
  refine ⟨coreTurn_err _, fun c v ko vo => ?config, fun k hround => ?key⟩
  case config => exact (step_of_coreNext (s.withConfig c v ko vo) hn).trans (congrArg _ (coreTurn_withConfig (s := s.withInputs rest) c v ko vo))
  case key => exact (step_of_coreNext (s.withKey k) hn).trans (congrArg _ (coreTurn_withKey (s := s.withInputs rest) k hround))

/-! ## Rounds in a direction (R245, R260) -/

/-- `n` rounds of a direction from a Block and a sum. -/
def roundsIn (d : Dir) (k : Key) (n : Nat) (b : Block) (sum : Word) : Block × Word :=
  match d with
  | .enc => encRounds k n b sum
  | .dec => decRounds k n b sum

theorem roundsIn_zero (d : Dir) (k : Key) (b : Block) (sum : Word) : roundsIn d k 0 b sum = (b, sum) := by
  cases d <;> rfl

theorem roundsIn_succ (d : Dir) (k : Key) (n : Nat) (b : Block) (sum : Word) :
    roundsIn d k (n + 1) b sum = roundIn d (roundsIn d k n b sum).1 (roundsIn d k n b sum).2 k := by
  cases d <;> rfl

/-- 32 rounds from the direction's initial sum are the block primitive (R123, R124). -/
theorem roundsIn_final (d : Dir) (k : Key) (b : Block) : (roundsIn d k 32 b (sumInit d)).1 = primitive d b k := by
  cases d <;> rfl

/-- The datapath holds RND rounds of the operation that began with the Block `b` (R260). -/
abbrev State.inRounds (s : State) (b : Block) : Prop :=
  s.rnd.toNat ≤ 32 ∧ (s.w, s.sum) = roundsIn s.cdir s.key s.rnd.toNat b (sumInit s.cdir)

theorem State.inRounds.roundStep {b : Block} (h : s.inRounds b) (hr : s.rnd < 32#6) : s.roundStep.inRounds b := by
  obtain ⟨-, hw⟩ := h
  have hrnd : (s.rnd + 1).toNat = s.rnd.toNat + 1 := by bv_omega
  have hlt : s.rnd.toNat < 32 := hr
  refine ⟨?_, ?_⟩
  · rw [roundStep_rnd, hrnd]; omega
  · rw [roundStep_w, roundStep_sum, roundStep_cdir, roundStep_key, roundStep_rnd, hrnd, roundsIn_succ, ← hw]

theorem State.inRounds.w_eq_primitive {b : Block} (h : s.inRounds b) (hr : s.rnd = 32#6) : s.w = primitive s.cdir b s.key := by
  obtain ⟨-, hw⟩ := h
  rw [hr] at hw
  exact (congrArg Prod.fst hw).trans (roundsIn_final s.cdir s.key b)

/-! ## What a transaction can do while the block works

Outside IDLE the locked writes and the commands that start an operation are refused, so that only a push, a pop and FINISH do more than show
a result, set CTRL or change the status flags. -/

/-- What a transaction other than ABORT can lead to from a state outside IDLE, with the bytes it brings in and reads out. -/
inductive HostWork (s : State) : List Byte → List Byte → State → Prop where
  | push (x : Byte) : s.acceptsPush → HostWork s [x] [] (s.pushByte x)
  | pop : s.ocnt ≠ 0#4 → HostWork s [] [s.nextOut] (s.popByte.answer (zextByte s.nextOut))
  | finish : s.session = true → HostWork s [] [] s.endInput
  | quiet (v : Option Word) (c : Ctrl) (dn e : Bool) (ec : ErrCode) :
      HostWork s [] [] { s with rdata := v, ctrl := c, done := dn, err := e, errCode := ec }

/-- A word is a DIN write by its fields W and ADDR, and carries its WDATA (R85). -/
theorem decode_eq_wrDin_iff {w : Transaction} {d : Word} :
    decode w = .ok (.wrDin d) ↔ w.isWrite = true ∧ w.addr = 0x30#8 ∧ w.wdata = d := by
  constructor
  · intro h
    obtain rfl | ⟨r, -, -, hr⟩ := word_of_decode h
    · simp [encode, Reg.offset]
    · cases r <;> cases hr
  · rintro ⟨hw, ha, rfl⟩
    have h : w = assemble true .din w.wdata := Transaction.eq_of_fields (by simp [hw]) (by simp [ha, Reg.offset]) (by simp)
    rw [h, decode_assemble, assemble_wdata]
    rfl

/-- A word is a DOUT read by its fields W and ADDR (R85). -/
theorem decode_eq_rdDout_iff {w : Transaction} : decode w = .ok .rdDout ↔ w.isWrite = false ∧ w.addr = 0x34#8 := by
  constructor
  · intro h
    obtain rfl | ⟨r, d, rfl, hr⟩ := word_of_decode h
    · simp [encode, Reg.offset]
    · cases r <;> cases hr
      simp [Reg.offset]
  · rintro ⟨hw, ha⟩
    have h : w = assemble false .dout w.wdata := Transaction.eq_of_fields (by simp [hw]) (by simp [ha, Reg.offset]) (by simp)
    rw [h, decode_assemble]
    rfl

/-- Only the word of ABORT decodes to it. -/
theorem eq_encode_of_decode_abort {w : Transaction} (h : decode w = .ok .abort) : w = encode .abort := by
  obtain rfl | ⟨r, -, -, hr⟩ := word_of_decode h
  · rfl
  · cases r <;> cases hr

section Bytes
variable {w : Transaction}

theorem acceptedByte_of_push {d : Word} (h : decode w = .ok (.wrDin d)) (ha : s.acceptsPush) :
    acceptedByte (.host w) s = [byteOperand d] := by
  obtain ⟨hw, haddr, rfl⟩ := decode_eq_wrDin_iff.mp h
  exact if_pos ⟨hw, haddr, ha⟩

theorem acceptedByte_of_no_push (h : ∀ d, decode w = .ok (.wrDin d) → ¬ s.acceptsPush) : acceptedByte (.host w) s = [] :=
  if_neg fun ⟨hw, haddr, ha⟩ => h w.wdata (decode_eq_wrDin_iff.mpr ⟨hw, haddr, rfl⟩) ha

theorem poppedByte_of_pop (h : decode w = .ok .rdDout) (ho : s.ocnt ≠ 0#4) :
    poppedByte (.host w) s t = t.rdata.toList.map byteOperand := by
  obtain ⟨hw, haddr⟩ := decode_eq_rdDout_iff.mp h
  exact if_pos ⟨hw, haddr, ho⟩

theorem poppedByte_of_no_pop (h : decode w = .ok .rdDout → s.ocnt = 0#4) : poppedByte (.host w) s t = [] :=
  if_neg fun ⟨hw, haddr, ho⟩ => ho (h (decode_eq_rdDout_iff.mpr ⟨hw, haddr⟩))

/-- R83, R197: the byte that the host takes from RDATA[7:0] is the one that was zero-extended. -/
theorem byteOperand_zextByte (x : Byte) : byteOperand (zextByte x) = x := by
  apply BitVec.eq_of_toNat_eq
  rw [byteOperand, BitVec.extractLsb'_toNat, zextByte_toNat]
  exact Nat.mod_eq_of_lt x.isLt

/-- An instruction that is neither an accepted push nor a pop moves no byte. -/
theorem HostWork.of_no_byte {i : Instr} (h : HostWork s [] [] t) (hi : decode w = .ok i) (hpush : ∀ d, i = .wrDin d → ¬ s.acceptsPush)
    (hpop : i = .rdDout → s.ocnt = 0#4) : HostWork s (acceptedByte (.host w) s) (poppedByte (.host w) s t) t := by
  rw [acceptedByte_of_no_push, poppedByte_of_no_pop]
  · exact h
  · intro hd
    exact hpop (Except.ok.inj (hi.symm.trans hd))
  · intro d hd
    exact hpush d (Except.ok.inj (hi.symm.trans hd))

/-- Every transaction but ABORT, from a state outside IDLE, does what `HostWork` says. -/
theorem hostWork_of_hostTransaction (hst : s.st ≠ .idle) (hw : w ≠ encode .abort) (h : hostTransaction w s = .next t) :
    HostWork s (acceptedByte (.host w) s) (poppedByte (.host w) s t) t := by
  obtain ⟨i, hi, he⟩ | ⟨why, hi, rfl⟩ := hostTransaction_effect s h
  · cases he with
    | push d ha =>
      rw [acceptedByte_of_push hi ha, poppedByte_of_no_pop (by simp [hi])]
      exact .push _ ha
    | pop ho =>
      rw [acceptedByte_of_no_push (by simp [hi]), poppedByte_of_pop hi ho, answer_rdata, Option.toList_some, List.map_singleton,
        byteOperand_zextByte]
      exact .pop ho
    | finish hs => exact .of_no_byte (.finish hs) hi nofun nofun
    | answer v hread hwrite =>
      refine .of_no_byte (.quiet _ _ _ _ _) hi ?_ (absurd · hread)
      rintro d rfl
      simp [encode] at hwrite
    | refuse c hc hna hnc hwrite hpush =>
      refine .of_no_byte (.quiet _ _ _ _ _) hi hpush ?_
      rintro rfl
      simp [encode] at hwrite
    | underrun ho => exact .of_no_byte (.quiet _ _ _ _ _) hi nofun fun _ => ho
    | ctrl | nop | clrstat => exact .of_no_byte (.quiet _ _ _ _ _) hi nofun nofun
    | abort => exact absurd (eq_encode_of_decode_abort hi) hw
    | start ha =>
      obtain ⟨hidle, -⟩ := ha
      exact absurd hidle hst
    | key0 d hidle | key1 d hidle | key2 d hidle | key3 d hidle | ivL d hidle | ivR d hidle | blkL d hidle | blkR d hidle
    | encBlock hidle | decBlock hidle => exact absurd hidle hst
  · rw [acceptedByte_of_no_push (by simp [hi]), poppedByte_of_no_pop (by simp [hi]), reject_eq]
    exact .quiet _ _ _ _ _

end Bytes

/-! ## A block command under every interleaving (R260, R261) -/

/-- A block command in progress: `n` rounds in the direction `d` of the operand `b` under the key `k`, both still in their registers. -/
abbrev State.runsBlock (s : State) (d : Dir) (k : Key) (b : Block) (n : Nat) : Prop :=
  s.st = .blkRun ∧ s.cdir = d ∧ s.key = k ∧ s.blk = b ∧ s.rnd.toNat = n ∧ s.inRounds b

section Block
variable {d : Dir} {k : Key} {b : Block} {n : Nat} {us rest : List Turn}

theorem runsBlock_beginBlock (s : State) (d : Dir) : (s.beginBlock d).runsBlock d s.key s.blk 0 :=
  ⟨rfl, rfl, rfl, rfl, rfl, Nat.zero_le _, (roundsIn_zero d s.key s.blk (sumInit d)).symm⟩

theorem coreTurns_cons (u : Turn) (us : List Turn) : coreTurns (u :: us) = coreTurns [u] + coreTurns us := by
  rw [coreTurns, List.countP_cons, Nat.add_comm]
  simp [coreTurns, List.countP_cons]

theorem HostWork.runsBlock {a p : List Byte} (hw : HostWork s a p t) (h : s.runsBlock d k b n) : t.runsBlock d k b n := by
  cases hw <;> exact h

theorem State.runsBlock.roundStep (h : s.runsBlock d k b n) (hn : n < 32) : s.roundStep.runsBlock d k b (n + 1) := by
  obtain ⟨hst, hd, hk, hb, hr, hrounds⟩ := h
  have hlt : s.rnd < 32#6 := by bv_omega
  refine ⟨hst, hd, hk, hb, ?_, hrounds.roundStep hlt⟩
  rw [roundStep_rnd]
  bv_omega

/-- One turn that keeps the work: a core turn is a round, and a transaction leaves the command alone. -/
theorem step_of_runsBlock {u : Turn} (h : s.runsBlock d k b n) (hin : s.inputs = u :: rest) (hu : u.keepsWork = true)
    (hn : n + coreTurns [u] ≤ 32) : ∃ t : State, step s = .next t ∧ t.runsBlock d k b (n + coreTurns [u]) ∧ t.inputs = rest := by
  have h' : (s.withInputs rest).runsBlock d k b n := h
  obtain ⟨hst, -, -, -, hr, -⟩ := h
  cases u with
  | core =>
    have hlt : n < 32 := hn
    have hr' : s.rnd < 32#6 := by bv_omega
    refine ⟨(s.withInputs rest).roundStep, ?_, h'.roundStep hlt, rfl⟩
    rw [step_of_core s hin, coreTurn_of_round (s.withInputs rest) (.inl hst) hr']
  | host w =>
    obtain ⟨t, ht⟩ := exists_hostTransaction_next w (s.withInputs rest)
    have hw : w ≠ encode .abort := bne_iff_ne.mp hu
    have hwork := hostWork_of_hostTransaction (by simp [hst]) hw ht
    exact ⟨t, (step_of_host s hin).trans ht, hwork.runsBlock h', inputs_of_hostTransaction ht⟩
  | reset | foreign => cases hu

/-- R260, by induction over the schedule. -/
theorem run_of_runsBlock (h : s.runsBlock d k b n) (hin : s.inputs = us ++ rest) (hkeep : ∀ u ∈ us, u.keepsWork = true)
    (hn : n + coreTurns us ≤ 32) :
    ∃ t : State, core.run us.length s = .next t ∧ t.runsBlock d k b (n + coreTurns us) ∧ t.inputs = rest := by
  induction us generalizing s n with
  | nil => exact ⟨s, rfl, h, hin⟩
  | cons u us ih =>
    obtain ⟨hu, hus⟩ := List.forall_mem_cons.mp hkeep
    rw [coreTurns_cons, ← Nat.add_assoc] at hn ⊢
    obtain ⟨t, hstep, ht, htin⟩ := step_of_runsBlock h hin hu (by omega)
    obtain ⟨v, hrun, hv⟩ := ih ht htin hus hn
    exact ⟨v, (run_succ _ hstep).trans hrun, hv⟩

/-- The command's own turn, from IDLE with the key loaded. -/
theorem step_of_block_command (hin : s.inputs = .host (encode (if d = .enc then .encBlock else .decBlock)) :: rest) (hst : s.st = .idle)
    (hkey : s.keyOk = 0b1111#4) : step s = .next ((s.withInputs rest).beginBlock d) := by
  rw [step_of_host s hin, ← blockCommand_of_key (s := s.withInputs rest) d hst hkey]
  cases d with
  | enc => exact hostTransaction_of_ok _ (i := .encBlock) (by decide)
  | dec => exact hostTransaction_of_ok _ (i := .decBlock) (by decide)

end Block

/-- Settles O53: 32 of the turns are rounds, in whatever order with transactions, and the core's next turn is BLK_DONE. -/
theorem blockCommandCorrespondence : Obligations.BlockCommandCorrespondence := by
  intro s d us hst hkey hkeep hcount command result
  have hbegin : step (s.withInputs (.host (encode command) :: us ++ [.core])) = .next ((s.withInputs (us ++ [.core])).beginBlock d) :=
    step_of_block_command rfl hst hkey
  obtain ⟨t, hrun, ⟨htst, htd, htk, -, hr, hrounds⟩, hin⟩ :=
    run_of_runsBlock (us := us) (rest := [.core]) (runsBlock_beginBlock (s.withInputs (us ++ [.core])) d) rfl hkeep (by omega)
  have hr32 : t.rnd = 32#6 := by
    apply BitVec.eq_of_toNat_eq
    rw [hr, hcount]
    rfl
  have hdone : step t = .next (t.withInputs []).blockDone := step_of_enabled (.inl hin) ((blkDone_enabled_iff t).mpr ⟨htst, hr32⟩)
  refine ⟨(t.withInputs []).blockDone, ?_, rfl, ?_, rfl⟩
  · exact (run_succ _ hbegin).trans (run_snoc us.length hrun hdone)
  · rw [blockDone_blk, withInputs_w, hrounds.w_eq_primitive hr32, htd, htk]
    cases d <;> rfl

/-! ## The codec on the bytes of a session (R164, R165, R170, R171) -/

/-- Whole chunks in front are not padded. -/
theorem pad_append {xs ys : List Byte} (h : xs.length % 8 = 0) : pad (xs ++ ys) = xs ++ pad ys := by
  have hlen : (xs ++ ys).length % 8 = ys.length % 8 := by
    rw [List.length_append]
    omega
  rw [pad, pad, hlen, List.append_assoc]

theorem length_blocksToBytes_mod (bs : List Block) : (blocksToBytes bs).length % 8 = 0 := by
  rw [length_blocksToBytes, Nat.mul_mod_right]

theorem chunks_blocksToBytes (bs : List Block) : chunks (blocksToBytes bs) = bs := by
  induction bs with
  | nil => rfl
  | cons b bs ih => rw [blocksToBytes_cons, chunks_append, blockOfBytes_bytesOfBlock, ih]

/-- Blocks that make up the padded bytes are the blocks of the bytes. -/
theorem bytesToBlocks_of_pad_eq {data : List Byte} {bs : List Block} (h : pad data = blocksToBytes bs) : (bytesToBlocks data).1 = bs := by
  rw [bytesToBlocks, h, chunks_blocksToBytes]

/-- The packed bytes, in order: PACK[0] to PACK[PCNT - 1] (R44). -/
def State.packed (s : State) : List Byte := s.pack.toList.take s.pcnt.toNat

theorem packed_of_empty (h : s.pcnt = 0#4) : s.packed = [] := by
  rw [State.packed, h]
  exact List.take_zero

theorem length_packed (h : s.pcnt.toNat ≤ 8) : s.packed.length = s.pcnt.toNat := by
  rw [State.packed, List.length_take, Vector.length_toList, Nat.min_eq_left h]

/-- R170: a push appends its byte. -/
theorem packed_pushByte (x : Byte) (h : s.pcnt.toNat < 8) : (s.pushByte x).packed = s.packed ++ [x] := by
  have hp : (s.pcnt + 1).toNat = s.pcnt.toNat + 1 := by bv_omega
  have hlen : s.pcnt.toNat < s.pack.toList.length := by rwa [Vector.length_toList]
  rw [State.packed, pushByte_pcnt, hp, pushByte_pack, Vector.toList_setIfInBounds, List.take_add_one, List.take_set_of_le le_rfl,
    List.getElem?_set_self hlen]
  rfl

/-- R171, R164: the bytes of the padded take are the packed bytes, padded. -/
theorem bytesOfBlock_takeBlock (hpos : 1 ≤ s.pcnt.toNat) (hle : s.pcnt.toNat ≤ 8) :
    (bytesOfBlock (takeBlock s.pack s.pcnt)).toList = pad s.packed := by
  have hlen := length_packed hle
  rw [takeBlock, bytesOfBlock_blockOfBytes]
  apply List.ext_getElem
  · rw [length_pad, hlen, Vector.length_toList]
    omega
  · intro i hi _
    have hi8 : i < 8 := by rwa [Vector.length_toList] at hi
    simp [pad, List.getElem_append, State.packed, hi8]
    rfl

/-! ## Everything a turn of a session can do -/

/-- A turn from an open session, with the bytes it brings in, emits and reads out: a transaction, or a row of R240. -/
inductive SessionTurn (s : State) : List Byte → List Byte → List Byte → State → Prop where
  | host {a p : List Byte} {t : State} : HostWork s a p t → SessionTurn s a [] p t
  | hold : SessionTurn s [] [] [] s
  | round : s.st = .sessRun → s.rnd < 32#6 → SessionTurn s [] [] [] s.roundStep
  | take : s.st = .sessWait → s.pcnt = 8#4 ∨ (s.fin = true ∧ 1#4 ≤ s.pcnt ∧ s.pcnt ≤ 7#4) → SessionTurn s [] [] [] s.takeInput
  | emit : s.st = .sessRun → s.rnd = 32#6 → s.ocnt = 0#4 → SessionTurn s [] s.emitOutput.obuf.toList [] s.emitOutput
  | close : s.st = .sessWait → s.fin = true → s.pcnt = 0#4 → SessionTurn s [] [] [] s.closeSession

theorem sessionTurn_of_coreTurn (hs : s.session = true) : SessionTurn s [] (emittedBytes .core s s.coreTurn) [] s.coreTurn := by
  obtain ⟨-, hnb⟩ := st_ne_of_session hs
  have hquiet : ∀ t, CoreStep.sessEmit.enabled s ≠ true → emittedBytes .core s t = [] := fun _ h => if_neg h
  obtain ⟨e, hen⟩ | ⟨⟨hst, hr⟩, e⟩ | ⟨⟨hst, -⟩, -⟩ | ⟨⟨hst, hp⟩, e⟩ | ⟨⟨hst, hr, ho⟩, e⟩ | ⟨⟨hst, hf, hp⟩, e⟩ := coreTurn_spec s
  · rw [e, hquiet s (by simp [hen])]
    exact .hold
  · have hne : s.rnd ≠ 32#6 := by bv_omega
    rw [e, hquiet _ (by simp [sessEmit_enabled_iff, hne])]
    exact .round (hst.resolve_left hnb) hr
  · exact absurd hst hnb
  · rw [e, hquiet _ (by simp [sessEmit_enabled_iff, hst])]
    exact .take hst hp
  · have hemit : emittedBytes .core s s.emitOutput = s.emitOutput.obuf.toList := if_pos ((sessEmit_enabled_iff s).mpr ⟨hst, hr, ho⟩)
    rw [e, hemit]
    exact .emit hst hr ho
  · rw [e, hquiet _ (by simp [sessEmit_enabled_iff, hst])]
    exact .close hst hf hp

/-- The turns of a trace, one step each. The schedule is spent by the step. -/
theorem sessionTurn_of_step {u : Turn} (hs : s.session = true) (hu : u.keepsWork = true) (h : step (s.withInputs [u]) = .next t) :
    SessionTurn (s.withInputs []) (acceptedByte u s) (emittedBytes u s t) (poppedByte u s t) t := by
  cases u with
  | core =>
    rw [step_of_core (s.withInputs [.core]) rfl] at h
    obtain rfl := Host.Outcome.next.inj h
    exact sessionTurn_of_coreTurn (s := s.withInputs []) hs
  | host w =>
    rw [step_of_host (s.withInputs [.host w]) rfl] at h
    obtain ⟨hni, -⟩ := st_ne_of_session hs
    exact .host (hostWork_of_hostTransaction (s := s.withInputs []) hni (bne_iff_ne.mp hu) h)
  | reset | foreign => cases hu

/-- Induction along a trace, once: what the opened session has, what the schedule does not touch, and what every turn of an open session
keeps, holds at every point of a trace. -/
theorem SessionTrace.induct {P : State → List Byte → List Byte → List Byte → Prop} {din out dout : List Byte}
    (h0 : s0.acceptsStart → P s0.openSession [] [] [])
    (hfeed : ∀ {s din out dout} us, P s din out dout → P (s.withInputs us) din out dout)
    (hturn : ∀ {s t din out dout a e p}, s.session = true → P s din out dout → SessionTurn s a e p t → P t (din ++ a) (out ++ e) (dout ++ p))
    (h : SessionTrace s0 s din out dout) : P s din out dout := by
  induction h with
  | opened ha he =>
    rw [exec_start_of_acceptsStart ha] at he
    obtain rfl := Host.Outcome.next.inj he
    exact h0 ha
  | turn u _ hs hu hstep ih => exact hturn (s := State.withInputs _ []) hs (hfeed [] ih) (sessionTurn_of_step hs hu hstep)

/-! ## The order in which the host reads (R45, R173) -/

/-- OCNT is in range, and what was read out, followed by what is left, is what was emitted. -/
abbrev State.readsInOrder (s : State) (out dout : List Byte) : Prop := s.ocnt.toNat ≤ 8 ∧ dout ++ s.unread = out

theorem unread_of_empty (h : s.ocnt = 0#4) : s.unread = [] := by
  rw [State.unread, h]
  exact List.drop_eq_nil_of_le (by rw [Vector.length_toList]; exact Nat.le_refl 8)

/-- A pop takes the first unread byte. -/
theorem unread_of_filled (h : s.ocnt ≠ 0#4) (hle : s.ocnt.toNat ≤ 8) : s.unread = s.nextOut :: s.popByte.unread := by
  have hp : 8 - (s.ocnt - 1).toNat = 8 - s.ocnt.toNat + 1 := by bv_omega
  have hlt : 8 - s.ocnt.toNat < 8 := by bv_omega
  have hnext : s.nextOut = s.obuf.toList[8 - s.ocnt.toNat]'(by rwa [Vector.length_toList]) := by
    rw [State.nextOut, Vector.getElem?_eq_getElem hlt, Vector.getElem_toList]
    rfl
  rw [State.unread, State.unread, popByte_ocnt, popByte_obuf, hp, hnext]
  exact List.drop_eq_getElem_cons _

theorem HostWork.readsInOrder {a p out dout : List Byte} (h : HostWork s a p t) (hr : s.readsInOrder out dout) :
    t.readsInOrder out (dout ++ p) := by
  obtain ⟨hle, hout⟩ := hr
  cases h with
  | pop ho =>
    have hle' : (s.ocnt - 1).toNat ≤ 8 := by bv_omega
    refine ⟨hle', ?_⟩
    rw [unread_of_filled ho hle] at hout
    rw [List.append_assoc]
    exact hout
  | push | finish | quiet => exact ⟨hle, by rw [List.append_nil]; exact hout⟩

theorem SessionTurn.readsInOrder {a e p out dout : List Byte} (h : SessionTurn s a e p t) (hr : s.readsInOrder out dout) :
    t.readsInOrder (out ++ e) (dout ++ p) := by
  cases h with
  | host hw => rw [List.append_nil]; exact hw.readsInOrder hr
  | emit hst hrnd ho =>
    obtain ⟨-, hout⟩ := hr
    rw [unread_of_empty ho, List.append_nil] at hout
    refine ⟨Nat.le_refl 8, ?_⟩
    rw [List.append_nil, hout]
    rfl
  | hold | round | take | close => rw [List.append_nil, List.append_nil]; exact hr

/-- R173, R262, at every point of a trace. -/
theorem SessionTrace.readsInOrder {din out dout : List Byte} (h : SessionTrace s0 s din out dout) : s.readsInOrder out dout :=
  h.induct (P := fun s _ out dout => s.readsInOrder out dout)
    (fun ⟨_, ho, _⟩ => ⟨by rw [openSession_ocnt, ho]; exact Nat.zero_le 8, unread_of_empty ho⟩)
    (fun _ h => h) (fun _ hr ht => ht.readsInOrder hr)

/-! ## The invariant of an open session (R262)

`taken` are the Blocks that the session has taken from the packer: those emitted, and the one in the datapath. -/

/-- The Block in the datapath, if one is. -/
def State.pending (s : State) : List Block := if s.st = .sessRun then [s.inBlk] else []

theorem pending_of_run (h : s.st = .sessRun) : s.pending = [s.inBlk] := if_pos h

theorem pending_of_wait (h : s.st = .sessWait) : s.pending = [] := if_neg (by simp [h])

/-- The input side: LEN counts the accepted bytes, and these are the taken Blocks and the packed bytes, up to the padding of the last Block of
a finished session. -/
structure State.InputSide (s : State) (din : List Byte) (taken : List Block) : Prop where
  pcnt_le : s.pcnt.toNat ≤ 8
  len_eq : s.len.toNat = din.length
  bytes_eq : s.fin = false → din = blocksToBytes taken ++ s.packed
  padded_eq : pad din = blocksToBytes taken ++ pad s.packed

/-- The output side: the session runs what START latched, NBLK counts the emitted Blocks, the datapath is in the rounds of the pending one, and
whatever Blocks follow, the mode function of all of them is what was emitted, then what it makes of the pending and later ones from CHAIN. -/
structure State.OutputSide (s s0 : State) (out : List Byte) (taken : List Block) : Prop where
  mode_eq : s.cmode = s0.ctrl.mode
  dir_eq : s.cdir = s0.ctrl.dir
  key_eq : s.key = s0.key
  count : (s.nblk.toNat + s.pending.length) % 2 ^ 32 = taken.length % 2 ^ 32
  rounds : s.st = .sessRun → s.inRounds (modeIn s.cmode s.cdir s.inBlk s.chain)
  emitted : ∀ later, out ++ blocksToBytes (modeFunction s.cmode s.cdir s.key s.chain (s.pending ++ later)) =
    blocksToBytes (modeFunction s.cmode s.cdir s.key s0.iv (taken ++ later))

section Sides
variable {din out : List Byte} {taken : List Block}

theorem State.InputSide.openSession (s : State) : s.openSession.InputSide [] [] where
  pcnt_le := Nat.zero_le 8
  len_eq := rfl
  bytes_eq _ := (packed_of_empty (s := s.openSession) rfl).symm
  padded_eq := by rw [packed_of_empty (s := s.openSession) rfl, blocksToBytes_nil, List.nil_append]

theorem State.InputSide.pushByte (h : s.InputSide din taken) (ha : s.acceptsPush) (x : Byte) :
    (s.pushByte x).InputSide (din ++ [x]) taken := by
  obtain ⟨hle, hlen, hbytes, -⟩ := h
  obtain ⟨-, hf, hmax, hfull⟩ := ha
  have hlt : s.pcnt.toNat < 8 := by bv_omega
  have hbytes' : din ++ [x] = blocksToBytes taken ++ (s.pushByte x).packed := by
    rw [packed_pushByte x hlt, ← List.append_assoc, ← hbytes hf]
  refine ⟨?_, ?_, fun _ => hbytes', ?_⟩
  · rw [pushByte_pcnt]
    bv_omega
  · rw [pushByte_len, List.length_append, List.length_singleton]
    bv_omega
  · rw [hbytes', pad_append (length_blocksToBytes_mod taken)]

theorem State.InputSide.endInput (h : s.InputSide din taken) : s.endInput.InputSide din taken :=
  { h with bytes_eq := nofun }

/-- R243: the packed bytes, padded, become the last taken Block. A Block of a session that is not finished needs no padding. -/
theorem State.InputSide.takeInput (h : s.InputSide din taken) (hp : s.pcnt = 8#4 ∨ (s.fin = true ∧ 1#4 ≤ s.pcnt ∧ s.pcnt ≤ 7#4)) :
    s.takeInput.InputSide din (taken ++ [takeBlock s.pack s.pcnt]) := by
  obtain ⟨hle, hlen, hbytes, hpadded⟩ := h
  have hpos : 1 ≤ s.pcnt.toNat := by
    obtain hp | ⟨-, hp, -⟩ := hp <;> bv_omega
  have hblock : blocksToBytes (taken ++ [takeBlock s.pack s.pcnt]) = blocksToBytes taken ++ pad s.packed := by
    rw [blocksToBytes_append, blocksToBytes_cons, bytesOfBlock_takeBlock hpos hle, blocksToBytes_nil, List.append_nil]
  have hempty : s.takeInput.packed = [] := packed_of_empty rfl
  refine ⟨Nat.zero_le 8, hlen, fun hf => ?_, ?_⟩
  · rw [takeInput_fin] at hf
    have hfull : s.pcnt = 8#4 := hp.resolve_right (by simp [hf])
    have hpad : pad s.packed = s.packed := pad_of_multiple (by rw [length_packed hle, hfull]; rfl)
    rw [hblock, hpad, hempty, List.append_nil]
    exact hbytes hf
  · rw [hpadded, hblock, hempty]
    exact (List.append_nil _).symm

theorem State.OutputSide.openSession (s0 : State) : s0.openSession.OutputSide s0 [] [] where
  mode_eq := rfl
  dir_eq := rfl
  key_eq := rfl
  count := rfl
  rounds := nofun
  emitted _ := rfl

theorem State.OutputSide.roundStep (h : s.OutputSide s0 out taken) (hst : s.st = .sessRun) (hr : s.rnd < 32#6) :
    s.roundStep.OutputSide s0 out taken :=
  { h with rounds := fun _ => (h.rounds hst).roundStep hr }

theorem State.OutputSide.takeInput (h : s.OutputSide s0 out taken) (hst : s.st = .sessWait) :
    s.takeInput.OutputSide s0 out (taken ++ [takeBlock s.pack s.pcnt]) := by
  obtain ⟨hm, hd, hk, hcount, -, hemitted⟩ := h
  rw [pending_of_wait hst] at hcount
  refine ⟨hm, hd, hk, ?_, fun _ => ⟨Nat.zero_le _, (roundsIn_zero ..).symm⟩, fun later => ?_⟩
  · rw [pending_of_run rfl, takeInput_nblk, List.length_append, List.length_singleton, List.length_singleton]
    rw [List.length_nil] at hcount
    omega
  · have he := hemitted (takeBlock s.pack s.pcnt :: later)
    rw [pending_of_wait hst] at he
    rw [pending_of_run rfl, List.append_assoc]
    exact he

/-- R247: the datapath holds the primitive of the pending Block, so OBUF is the mode function's next Block and CHAIN its next chain Block. -/
theorem State.OutputSide.emitOutput (h : s.OutputSide s0 out taken) (hst : s.st = .sessRun) (hr : s.rnd = 32#6) :
    s.emitOutput.OutputSide s0 (out ++ s.emitOutput.obuf.toList) taken := by
  obtain ⟨hm, hd, hk, hcount, hrounds, hemitted⟩ := h
  rw [pending_of_run hst] at hcount
  refine ⟨hm, hd, hk, ?_, nofun, fun later => ?_⟩
  · rw [pending_of_wait rfl, emitOutput_nblk]
    rw [List.length_singleton] at hcount
    rw [List.length_nil, ← hcount]
    bv_omega
  · have he := hemitted later
    rw [pending_of_run hst, List.singleton_append, modeFunction_cons, ← (hrounds hst).w_eq_primitive hr, blocksToBytes_cons,
      ← List.append_assoc] at he
    rw [pending_of_wait rfl, List.nil_append]
    exact he

end Sides

/-- The invariant of an open session, for some Blocks taken so far. -/
abbrev State.openInv (s s0 : State) (din out : List Byte) : Prop := ∃ taken, s.InputSide din taken ∧ s.OutputSide s0 out taken

theorem HostWork.openInv {a p din out : List Byte} (hw : HostWork s a p t) (h : s.openInv s0 din out) : t.openInv s0 (din ++ a) out := by
  obtain ⟨taken, hin, hout⟩ := h
  cases hw with
  | push x ha => exact ⟨taken, hin.pushByte ha x, { hout with }⟩
  | finish hs => exact ⟨taken, by rw [List.append_nil]; exact hin.endInput, { hout with }⟩
  | pop | quiet => exact ⟨taken, by rw [List.append_nil]; exact { hin with }, { hout with }⟩

/-- No turn that leaves the session open breaks its invariant. -/
theorem SessionTurn.openInv {a e p din out : List Byte} (ht : SessionTurn s a e p t) (h : s.openInv s0 din out) (hs : t.session = true) :
    t.openInv s0 (din ++ a) (out ++ e) := by
  cases ht with
  | host hw => rw [List.append_nil out]; exact hw.openInv h
  | hold => rw [List.append_nil, List.append_nil]; exact h
  | round hst hr =>
    obtain ⟨taken, hin, hout⟩ := h
    rw [List.append_nil, List.append_nil]
    exact ⟨taken, { hin with }, hout.roundStep hst hr⟩
  | take hst hp =>
    obtain ⟨taken, hin, hout⟩ := h
    rw [List.append_nil, List.append_nil]
    exact ⟨_, hin.takeInput hp, hout.takeInput hst⟩
  | emit hst hr =>
    obtain ⟨taken, hin, hout⟩ := h
    rw [List.append_nil]
    exact ⟨taken, { hin with }, hout.emitOutput hst hr⟩
  | close => cases hs

theorem SessionTrace.openInv {din out dout : List Byte} (h : SessionTrace s0 s din out dout) (hs : s.session = true) : s.openInv s0 din out :=
  h.induct (P := fun s din out _ => s.session = true → s.openInv s0 din out)
    (fun _ _ => ⟨[], .openSession s0, .openSession s0⟩)
    (fun _ hinv hs => let ⟨taken, hin, hout⟩ := hinv hs; ⟨taken, { hin with }, { hout with }⟩)
    (fun hs hinv ht hs' => ht.openInv (hinv hs) hs') hs

/-! ## The close (R248) -/

theorem HostWork.session_eq {a p : List Byte} (h : HostWork s a p t) : t.session = s.session := by
  cases h <;> rfl

/-- SESS_CLOSE is the one turn that ends a session. -/
theorem SessionTurn.eq_close {a e p : List Byte} (h : SessionTurn s a e p t) (hs : s.session = true) (hc : t.session = false) :
    (s.st = .sessWait ∧ s.fin = true ∧ s.pcnt = 0#4) ∧ a = [] ∧ e = [] ∧ t = s.closeSession := by
  cases h with
  | close hst hf hp => exact ⟨⟨hst, hf, hp⟩, rfl, rfl, rfl⟩
  | host hw => simp [hw.session_eq, hs] at hc
  | hold => simp [hs] at hc
  | round => exact absurd (hs.symm.trans hc) nofun
  | take | emit => cases hc

/-- A trace that has closed ends with a SESS_CLOSE from an open session, whose invariant speaks of all the bytes of the trace. -/
theorem SessionTrace.eq_close {din out dout : List Byte} (h : SessionTrace s0 s din out dout) (hc : s.session = false) :
    ∃ v : State, v.openInv s0 din out ∧ (v.st = .sessWait ∧ v.fin = true ∧ v.pcnt = 0#4) ∧ s = v.closeSession := by
  cases h with
  | opened ha he =>
    rw [exec_start_of_acceptsStart ha] at he
    obtain rfl := Host.Outcome.next.inj he
    cases hc
  | turn u h hs hu hstep =>
    obtain ⟨hends, ha, he, ht⟩ := (sessionTurn_of_step hs hu hstep).eq_close hs hc
    obtain ⟨taken, hin, hout⟩ := h.openInv hs
    rw [ha, he, List.append_nil, List.append_nil]
    exact ⟨State.withInputs _ [], ⟨taken, { hin with }, { hout with }⟩, hends, ht⟩

/-- With the packer empty and no Block in the datapath, the taken Blocks are all of the padded bytes, and all of them are emitted. -/
theorem State.openInv.at_close {din out : List Byte} (h : s.openInv s0 din out) (hst : s.st = .sessWait) (hp : s.pcnt = 0#4) :
    out = blocksToBytes (modeFunction s0.ctrl.mode s0.ctrl.dir s0.key s0.iv (bytesToBlocks din).1) ∧
    s.len.toNat = din.length ∧ s.nblk.toNat = (din.length + 7) / 8 := by
  obtain ⟨taken, ⟨-, hlen, -, hpadded⟩, ⟨hm, hd, hk, hcount, -, hemitted⟩⟩ := h
  have htaken : (bytesToBlocks din).1 = taken := by
    apply bytesToBlocks_of_pad_eq
    rw [hpadded, packed_of_empty hp]
    exact List.append_nil _
  have hnblk : taken.length = (din.length + 7) / 8 := htaken ▸ length_bytesToBlocks din
  have hout := hemitted []
  rw [pending_of_wait hst, List.append_nil, modeFunction_nil, blocksToBytes_nil, List.append_nil, List.append_nil, hm, hd, hk] at hout
  rw [pending_of_wait hst, List.length_nil] at hcount
  refine ⟨htaken ▸ hout, hlen, ?_⟩
  bv_omega

/-- Settles O55: the invariant of the open session at its close, and the order of reads at the end of the trace. -/
theorem sessionCorrespondence : Obligations.SessionCorrespondence := by
  intro s0 s din out dout h hc
  obtain ⟨-, hreads⟩ := h.readsInOrder
  obtain ⟨v, hinv, ⟨hst, -, hp⟩, rfl⟩ := h.eq_close hc
  obtain ⟨hout, hlen, hnblk⟩ := hinv.at_close hst hp
  exact ⟨hout, hlen, hnblk, rfl, rfl, hreads⟩

end Sys2Proof.Machine
end

/-! PROOFS of the family 60_exceptions.md. First what a transaction does to every element but ERR, ERRCODE and DONE: clearing these three before
it, as CLRSTAT does, changes nothing of its effect once they are cleared after it too (R276). Then the statements. -/

section
namespace Sys2Proof.Machine

variable {s s' t t' : State}

/-! ## The turn of a transaction -/

/-- The turn of a transaction that selects a row is the row's meaning, on the rest of the schedule. -/
theorem step_of_decode {w : Transaction} {i : Instr} {rest : List Turn} (hin : s.inputs = .host w :: rest) (hd : decode w = .ok i) :
    step s = exec i (s.withInputs rest) :=
  (step_of_host s hin).trans (hostTransaction_of_ok _ hd)

/-! ## An instruction up to ERR, ERRCODE and DONE (R276)

Two states differ at most in these three when `clearStatus` makes them equal. -/

/-- Other values in ERR, DONE and ERRCODE. -/
def State.withStatus (e d : Bool) (c : ErrCode) (s : State) : State := { s with err := e, done := d, errCode := c }

/-- An outcome with ERR, ERRCODE and DONE cleared in the next state. -/
def clearAfter (o : Host.Outcome State Fault Refusal) : Host.Outcome State Fault Refusal :=
  match o with
  | .next t    => .next t.clearStatus
  | .fault r   => .fault r
  | .refused r => .refused r

@[simp] theorem clearStatus_raise (s : State) (c : ErrCode) : (s.raise c).clearStatus = s.clearStatus := rfl

@[simp] theorem clearStatus_clearStatus (s : State) : s.clearStatus.clearStatus = s.clearStatus := rfl

/-- A rejected transaction answers a read with 0, and records the rest in ERR and ERRCODE. -/
theorem clearStatus_reject (s : State) (why : Reject) (w : Bool) :
    (s.reject why w).clearStatus = if w then s.clearStatus else s.clearStatus.answer 0 := by
  cases w <;> rfl

/-- The lock looks at st only, so it lets a write through whatever ERR, ERRCODE and DONE hold. -/
theorem clearStatus_lockedWrite {u u' : State} (hu : u'.clearStatus = u.clearStatus) :
    (s.clearStatus.lockedWrite u').clearStatus = (s.lockedWrite u).clearStatus := by
  by_cases h : s.st = .idle
  · rw [lockedWrite_of_idle s u h, lockedWrite_of_idle s.clearStatus u' h, hu]
  · rw [lockedWrite_of_locked s u h, lockedWrite_of_locked s.clearStatus u' h, clearStatus_raise, clearStatus_raise, clearStatus_clearStatus]

/-- The checks of a block command look at st and KEY_OK only. -/
theorem clearStatus_blockCommand (s : State) (d : Dir) : (s.clearStatus.blockCommand d).clearStatus = (s.blockCommand d).clearStatus := by
  simp only [State.blockCommand, apply_ite State.clearStatus]
  rfl

/-- No instruction but the STATUS read looks at ERR, ERRCODE and DONE, except to set them. -/
theorem clearAfter_exec {i : Instr} (hi : i ≠ .rdStatus) (s : State) : clearAfter (exec i s.clearStatus) = clearAfter (exec i s) := by
  cases i with
  | rdStatus => exact absurd rfl hi
  | rdDout =>
    simp only [exec, execRdDout, apply_ite clearAfter]
    rfl
  | wrDin d =>
    simp only [exec, execWrDin, apply_ite clearAfter]
    rfl
  | wrKey0 d | wrKey1 d | wrKey2 d | wrKey3 d | wrIvL d | wrIvR d | wrBlkL d | wrBlkR d =>
    exact congrArg Host.Outcome.next (clearStatus_lockedWrite rfl)
  | encBlock => exact congrArg Host.Outcome.next (clearStatus_blockCommand s .enc)
  | decBlock => exact congrArg Host.Outcome.next (clearStatus_blockCommand s .dec)
  | start =>
    simp only [exec, execStart, apply_ite clearAfter]
    rfl
  | finish =>
    simp only [exec, execFinish, apply_ite clearAfter]
    rfl
  | _ => rfl

/-- The same, for two states that differ at most in ERR, ERRCODE and DONE. -/
theorem clearStatus_eq_of_exec {i : Instr} (hi : i ≠ .rdStatus) (hs : s'.clearStatus = s.clearStatus) (h : exec i s = .next t)
    (h' : exec i s' = .next t') : t'.clearStatus = t.clearStatus := by
  have hclear : clearAfter (exec i s') = clearAfter (exec i s) := by rw [← clearAfter_exec hi s', hs, clearAfter_exec hi s]
  rw [h, h'] at hclear
  exact Host.Outcome.next.inj hclear

/-- A rejected transaction looks at none of the three either, so the same holds of every transaction but a STATUS read. -/
theorem clearStatus_eq_of_hostTransaction {w : Transaction} (hw : decode w ≠ .ok .rdStatus) (hs : s'.clearStatus = s.clearStatus)
    (h : hostTransaction w s = .next t) (h' : hostTransaction w s' = .next t') : t'.clearStatus = t.clearStatus := by
  cases hd : decode w with
  | ok i =>
    rw [hostTransaction_of_ok _ hd] at h h'
    have hi : i ≠ .rdStatus := fun e => hw (e ▸ hd)
    exact clearStatus_eq_of_exec hi hs h h'
  | error why =>
    rw [hostTransaction_of_error _ hd] at h h'
    obtain rfl := Host.Outcome.next.inj h
    obtain rfl := Host.Outcome.next.inj h'
    rw [clearStatus_reject, clearStatus_reject, hs]

/-- A state is what CLRSTAT leaves of it, with its own ERR, ERRCODE and DONE put back. -/
theorem eq_of_clearStatus_eq (h : t'.clearStatus = t.clearStatus) : t' = t.withStatus t'.err t'.done t'.errCode := by
  change t'.clearStatus.withStatus t'.err t'.done t'.errCode = t.clearStatus.withStatus t'.err t'.done t'.errCode
  rw [h]

/-! ## The statements -/

/-- Settles O36: a STATUS read changes RDATA alone; any other transaction, from two states that agree once ERR, ERRCODE and DONE are cleared,
answers two such states. -/
theorem errorsBlockNothing : Obligations.ErrorsBlockNothing := by
  intro s t w rest e d c hin hstep
  have hin' : (s.withStatus e d c).inputs = .host w :: rest := hin
  by_cases hd : decode w = .ok .rdStatus
  · rw [step_of_decode hin hd] at hstep
    obtain rfl := Host.Outcome.next.inj hstep
    exact ⟨e, d, c, _, step_of_decode hin' hd, fun hne => absurd hd hne⟩
  · rw [step_of_host s hin] at hstep
    obtain ⟨t', hstep'⟩ := exists_hostTransaction_next w ((s.withStatus e d c).withInputs rest)
    have hs : ((s.withStatus e d c).withInputs rest).clearStatus = (s.withInputs rest).clearStatus := rfl
    have hclear : t'.clearStatus = t.clearStatus := clearStatus_eq_of_hostTransaction hd hs hstep hstep'
    refine ⟨t'.err, t'.done, t'.errCode, t.rdata, ?_, fun _ => rfl⟩
    calc step (s.withStatus e d c)
      _ = .next t' := (step_of_host _ hin').trans hstep'
      _ = .next (t.withStatus t'.err t'.done t'.errCode) := congrArg _ (eq_of_clearStatus_eq hclear)

/-- Settles O57: START opens the session with an empty packer, FINISH sets fin, and then SESS_CLOSE is the enabled step. -/
theorem emptySessionClosesWithoutError : Obligations.EmptySessionClosesWithoutError := by
  intro s h
  have hstart : step (s.withInputs [.host (encode .start), .host (encode .finish), .core]) =
      .next (s.withInputs [.host (encode .finish), .core]).openSession :=
    (step_of_decode (i := .start) rfl (by decide)).trans (exec_start_of_acceptsStart (s := s.withInputs _) h)
  have hfinish : step (s.withInputs [.host (encode .finish), .core]).openSession = .next (s.withInputs [.core]).openSession.endInput :=
    (step_of_decode (i := .finish) rfl (by decide)).trans (exec_finish_of_session (s := (s.withInputs [.core]).openSession) rfl)
  have hclose : step (s.withInputs [.core]).openSession.endInput = .next (s.withInputs []).openSession.endInput.closeSession :=
    step_of_enabled (c := .sessClose) (.inl rfl) rfl
  obtain ⟨-, hout, -, -⟩ := h
  refine ⟨(s.withInputs []).openSession.endInput.closeSession, ?_, rfl, rfl, rfl, rfl, hout, rfl, rfl, rfl⟩
  rw [run_succ 2 hstart, run_succ 1 hfinish, run_succ 0 hclose, run_zero]

end Sys2Proof.Machine
end

/-! PROOFS of the family 70_reset_and_hazards.md. First what each agent's turn does to the loaded masks: the core never touches them, and a
transaction only adds to them (R302). Then the statements. -/

section
namespace Sys2Proof.Machine

variable {s t : State}

/-! ## The loaded masks only grow (R25, R26, R302) -/

/-- Every bit of KEY_OK and IV_OK that is set before is set after. -/
abbrev State.keepsMasks (s t : State) : Prop := t.keyOk &&& s.keyOk = s.keyOk ∧ t.ivOk &&& s.ivOk = s.ivOk

theorem keepsMasks_of_eq (hk : t.keyOk = s.keyOk) (hv : t.ivOk = s.ivOk) : s.keepsMasks t :=
  ⟨hk ▸ BitVec.and_self, hv ▸ BitVec.and_self⟩

/-- Setting bits in a mask clears none of its own (absorption, bit by bit). -/
theorem or_and_cancel_left {n : Nat} (mask bits : BitVec n) : (mask ||| bits) &&& mask = mask := by
  apply BitVec.eq_of_getLsbD_eq
  intro i _
  rw [BitVec.getLsbD_and, BitVec.getLsbD_or, Bool.and_comm]
  exact inf_sup_self

/-- The accepted writes of KEYn, IV_L and IV_R set their bit; no other effect touches a mask. -/
theorem Effect.keepsMasks {i : Instr} (e : Effect s i t) : s.keepsMasks t := by
  cases e with
  | key0 | key1 | key2 | key3 => exact ⟨or_and_cancel_left _ _, BitVec.and_self⟩
  | ivL | ivR => exact ⟨BitVec.and_self, or_and_cancel_left _ _⟩
  | _ => exact keepsMasks_of_eq rfl rfl

theorem keepsMasks_reject (s : State) (why : Reject) (w : Bool) : s.keepsMasks (s.reject why w) := by
  obtain ⟨-, e⟩ | ⟨-, e⟩ := reject_cases s why w <;> rw [e] <;> exact keepsMasks_of_eq rfl rfl

theorem keepsMasks_of_hostTransaction {w : Transaction} (h : hostTransaction w s = .next t) : s.keepsMasks t := by
  obtain ⟨i, -, he⟩ | ⟨why, -, rfl⟩ := hostTransaction_effect s h
  · exact he.keepsMasks
  · exact keepsMasks_reject s why _

theorem keepsMasks_coreTurn (s : State) : s.keepsMasks s.coreTurn := by
  obtain ⟨h, -⟩ | ⟨c, -, h⟩ := coreTurn_cases s <;> rw [h]
  · exact keepsMasks_of_eq rfl rfl
  · cases c <;> exact keepsMasks_of_eq rfl rfl

/-- Every step that is not a reset is a turn of the core or a transaction. -/
theorem keepsMasks_of_step (h : step s = .next t) (hr : s.inputs.head? ≠ some .reset) : s.keepsMasks t := by
  obtain ⟨rest, -, rfl⟩ | ⟨w, rest, -, ht⟩ | ⟨rest, hin, -⟩ := step_cases h
  · exact keepsMasks_coreTurn (s.withInputs rest)
  · exact keepsMasks_of_hostTransaction (s := s.withInputs rest) ht
  · exact absurd (congrArg List.head? hin) hr

/-! ## The statements -/

/-- Settles O9: the turn of a reset is State.reset with the rest of the schedule. -/
theorem resetEventSetsEveryElement : Obligations.ResetEventSetsEveryElement := fun s _ hin =>
  ⟨_, step_of_reset s hin, rfl⟩

/-- Settles O46: a reset turn gives the key, the IV and both masks their reset values, and every other step only adds to the masks. -/
theorem onlyResetClearsTheLoadedMasks : Obligations.OnlyResetClearsTheLoadedMasks := by
  intro s t h
  refine ⟨fun hr => ?reset, keepsMasks_of_step h⟩
  obtain ⟨rest, hin⟩ := List.head?_eq_some_iff.mp hr
  obtain rfl := Host.Outcome.next.inj ((step_of_reset s hin).symm.trans h)
  exact ⟨rfl, rfl, rfl, rfl⟩

end Sys2Proof.Machine
end

/-! PROOFS of the statements that stand across the families, first the round trip of the encoder and the table of rows. What a decoded word is,
whether it is a read or a write, and that a word which selects a row passes every check of R86; then the statements. -/

section
namespace Sys2Proof

variable {t : Transaction} {i : Instr}

/-! ## The word of an instruction (R80 to R85) -/

/-- Every instruction's word is assembled from its register and operand, and the decoder reads both back. -/
theorem decode_encode (i : Instr) : decode (encode i) = .ok i := by
  cases i with
  | nop | encBlock | decBlock | start | finish | abort | clrstat => decide
  | wrCtrl d | wrKey0 d | wrKey1 d | wrKey2 d | wrKey3 d | wrIvL d | wrIvR d | wrBlkL d | wrBlkR d | wrDin d =>
    exact (decode_assemble true _ d).trans rfl
  | _ => exact (decode_assemble false _ 0).trans rfl

/-- A word and the instruction it decodes to are both reads or both writes. -/
theorem isWrite_encode_of_decode (h : decode t = .ok i) : (encode i).isWrite = t.isWrite := by
  obtain rfl | ⟨r, d, rfl, rfl⟩ := word_of_decode h
  · rfl
  · rw [encode_readRow, assemble_isWrite, assemble_isWrite]

/-- A write carries no ignored bits, so its word is the encoding. -/
theorem eq_encode_of_decode_write (h : decode t = .ok i) (hw : t.isWrite = true) : t = encode i := by
  obtain ht | ⟨r, d, rfl, -⟩ := word_of_decode h
  · exact ht
  · rw [assemble_isWrite] at hw
    cases hw

/-- The word of a read has WDATA = 0 (R83). -/
theorem encode_and_headMask_of_read (hr : (encode i).isWrite = false) : encode i &&& 0x1FF00000000#41 = encode i := by
  cases i with
  | wrCtrl | wrKey0 | wrKey1 | wrKey2 | wrKey3 | wrIvL | wrIvR | wrBlkL | wrBlkR | wrDin
  | nop | encBlock | decBlock | start | finish | abort | clrstat =>
    rw [encode, assemble_isWrite] at hr
    cases hr
  | _ => decide

theorem encode_of_decode_read (h : decode t = .ok i) (hr : t.isWrite = false) : encode i = t &&& 0x1FF00000000#41 := by
  obtain rfl | ⟨r, d, rfl, rfl⟩ := word_of_decode h
  · exact (encode_and_headMask_of_read hr).symm
  · rw [encode_readRow, assemble_and_headMask]

/-! ## A word that selects a row is legal (R86, R92) -/

theorem exists_decode_of_wf (h : t.wf = true) : ∃ i, decode t = .ok i := by
  simp only [Transaction.wf, Bool.and_eq_true] at h
  obtain ⟨⟨⟨ha, hm⟩, hw⟩, hc⟩ := h
  obtain ⟨hbad, -⟩ | ⟨-, hillegal, -⟩ | ⟨-, -, hi⟩ := decode_cases t
  · simp [ha, hm, hw] at hbad
  · simp [hc] at hillegal
  · exact hi

/-- The checks of R86 other than the one of a command word look at W and ADDR only. -/
theorem wf_of_headMask (hcmd : ((t &&& 0x1FF00000000#41).writes && (t &&& 0x1FF00000000#41).offset == 0x08) = false)
    (h : (t &&& 0x1FF00000000#41).wf = true) : t.wf = true := by
  have hones : Transaction.addr 0x1FF00000000#41 = BitVec.allOnes 8 := by decide
  have haddr : (t &&& 0x1FF00000000#41).addr = t.addr := by rw [addr_and, hones, BitVec.and_allOnes]
  have hoffset : (t &&& 0x1FF00000000#41).offset = t.offset := by rw [Transaction.offset_eq_addr, haddr, Transaction.offset_eq_addr]
  have hwrites : (t &&& 0x1FF00000000#41).writes = t.writes := by
    rw [Transaction.writes_eq_isWrite, isWrite_and, Transaction.writes_eq_isWrite]
    exact Bool.and_true _
  rw [hwrites, hoffset] at hcmd
  simp only [Transaction.wf, Transaction.aligned, Transaction.mapped, Transaction.writable, Transaction.commandDefined, hwrites, hoffset,
    hcmd, Bool.not_false, Bool.true_or] at h ⊢
  exact h

/-- Both kinds of rows: a command's pattern is its one word, and any other row looks at W and ADDR. -/
theorem wf_of_selects {row : OpcodeRow} (hm : row ∈ opcodeTable) (h : t &&& row.mask = row.pattern) : t.wf = true := by
  have hrows : ∀ row ∈ opcodeTable, Transaction.wf row.pattern = true ∧ (row.mask = BitVec.allOnes 41 ∨
      row.mask = 0x1FF00000000#41 ∧ (Transaction.writes row.pattern && Transaction.offset row.pattern == 0x08) = false) := by
    decide
  obtain ⟨hwf, hmask | ⟨hmask, hcmd⟩⟩ := hrows row hm
  · rw [hmask, BitVec.and_allOnes] at h
    rw [h]
    exact hwf
  · rw [hmask] at h
    rw [← h] at hwf hcmd
    exact wf_of_headMask hcmd hwf

/-- The 35 mnemonics are different. -/
theorem row_eq_of_mnemonic_eq {row row' : OpcodeRow} (hm : row ∈ opcodeTable) (hm' : row' ∈ opcodeTable)
    (h : row.mnemonic = row'.mnemonic) : row = row' := by
  have hdistinct : (opcodeTable.map OpcodeRow.mnemonic).Nodup := by decide
  exact List.inj_on_of_nodup_map hdistinct hm hm' h

/-! ## The statements -/

/-- Settles O1: the decoder reads back the register and the operand from which the word was assembled. -/
theorem decodeOfEncodeIsTheInstruction : Obligations.DecodeOfEncodeIsTheInstruction := decode_encode

/-- Settles O2: a write's word is determined by its instruction, a read's up to WDATA. -/
theorem encodeOfDecodeIsTheWord : Obligations.EncodeOfDecodeIsTheWord := by
  intro t i h
  split
  next hw => exact (eq_encode_of_decode_write h hw).symm
  next hr => exact encode_of_decode_read h (Bool.not_eq_true _ ▸ hr)

/-- Settles O3: a word that selects a row is legal, so it decodes, and the one row it selects is that of its instruction. -/
theorem tableRowSelectsTheDecodedInstruction : Obligations.TableRowSelectsTheDecodedInstruction := by
  refine ⟨⟨rfl, rfl, rfl, rfl⟩, fun t row hm => ⟨fun h => ?_, ?_⟩⟩
  · obtain ⟨i, hi⟩ := exists_decode_of_wf (wf_of_selects hm h)
    obtain rfl := (selects_iff_of_decode hi hm).mp (beq_iff_eq.mpr h)
    exact ⟨i, hi, rfl⟩
  · rintro ⟨i, hi, hmnemonic⟩
    obtain rfl := row_eq_of_mnemonic_eq (row_mem_opcodeTable i) hm hmnemonic
    exact beq_iff_eq.mp (row_selects_of_decode hi)

end Sys2Proof
end

/-! PROOFS, continued: the turn of an instruction's word, CBC on altered sequences and the padded take; then the statements that follow from these
and from the lemmas of the families before. -/

section
namespace Sys2Proof.Machine

variable {s t : State}

/-! ## The turn of an instruction's word -/

/-- An instruction's word is below 2^41, so the wider fetch cuts nothing off (entry 11). -/
theorem fetchTurn_encode (i : Instr) : fetchTurn 48 (encode i).toNat = .host (encode i) := by
  have hlt : (encode i).toNat < 2 ^ 41 := (encode i).isLt
  have hmod : (encode i).toNat % 2 ^ 48 = (encode i).toNat := Nat.mod_eq_of_lt (by omega)
  rw [fetchTurn, hmod, if_pos hlt, BitVec.ofNat_toNat, BitVec.setWidth_eq]

theorem step_of_encode (i : Instr) (us : List Turn) : step (s.withInputs (.host (encode i) :: us)) = exec i (s.withInputs us) :=
  step_of_decode rfl (decode_encode i)

/-! ## CBC on sequences that differ in one block (R146) -/

theorem encryptBlock_injective (k : Key) : Function.Injective fun b => encryptBlock b k :=
  Function.LeftInverse.injective (g := fun c => decryptBlock c k) fun b => decryptBlock_encryptBlock b k

theorem xorB_left_injective (prev : Block) : Function.Injective fun b => xorB b prev :=
  Function.LeftInverse.injective (g := fun b => xorB b prev) fun b => xorB_xorB_cancel b prev

/-- By induction over the common blocks: they hand both sides the same `prev`, from which the two altered blocks are enciphered
differently. -/
theorem cbcEncrypt_of_alteration (k : Key) (prev : Block) {p q : Block} (before after : List Block) (hne : p ≠ q) :
    (cbcEncrypt k (before ++ p :: after) prev).take before.length = (cbcEncrypt k (before ++ q :: after) prev).take before.length ∧
    (cbcEncrypt k (before ++ p :: after) prev)[before.length]? ≠ (cbcEncrypt k (before ++ q :: after) prev)[before.length]? := by
  induction before generalizing prev with
  | nil =>
    have hc : encryptBlock (xorB p prev) k ≠ encryptBlock (xorB q prev) k :=
      (encryptBlock_injective k).ne ((xorB_left_injective prev).ne hne)
    simp [hc]
  | cons b before ih =>
    obtain ⟨htake, hget⟩ := ih (encryptBlock (xorB b prev) k)
    simp [htake, hget]

/-! ## The padded take (R171) -/

/-- The packed bytes of a packer and its fill count are the ones whose padding the take decodes. -/
theorem bytesToBlocks_packed (hpos : 1 ≤ s.pcnt.toNat) (hle : s.pcnt.toNat ≤ 8) :
    (bytesToBlocks s.packed).1 = [takeBlock s.pack s.pcnt] :=
  bytesToBlocks_of_pad_eq (by rw [← bytesOfBlock_takeBlock hpos hle, blocksToBytes_cons, blocksToBytes_nil, List.append_nil])

/-! ## The statements -/

/-- Settles O6: the turn's word decodes to the instruction, and an instruction's word is the turn that a fetch puts at the head. -/
theorem stepRunsTheDecodedInstruction : Obligations.StepRunsTheDecodedInstruction := by
  refine ⟨fun s w rest i hin hd => step_of_decode hin hd, fun s i => ?_⟩
  rw [State.withFetchWord, fetchTurn_encode, step_of_encode, withInputs_self]

/-- Settles O10: reset satisfies the invariant, which does not look at the schedule. -/
theorem invHoldsAfterReset : Obligations.InvHoldsAfterReset := inv_reset.withInputs

/-- Settles O11: every operation that a turn performs keeps the invariant. -/
theorem stepKeepsInv : Obligations.StepKeepsInv := fun _ _ h e => h.step e

/-- Settles O18: in a hold no step is enabled, and a core turn without an enabled step changes nothing. -/
theorem coreHoldsWhileNothingIsEnabled : Obligations.CoreHoldsWhileNothingIsEnabled := by
  intro s rest hn hold
  have hnone : (s.withInputs rest).coreStep? = none := coreStep?_of_hold hold
  rw [step_of_coreNext s hn, State.coreTurn, hnone]
  rfl

/-- Settles O26: the sequence after the altered block does not matter. -/
theorem cbcAlterationChangesNoEarlierBlock : Obligations.CbcAlterationChangesNoEarlierBlock := fun k iv _ _ before after hne =>
  cbcEncrypt_of_alteration k iv before after hne

/-- Settles O29, on a state that holds the packer. -/
theorem paddedTakeIsTheCodecOnThePackedBytes : Obligations.PaddedTakeIsTheCodecOnThePackedBytes := fun pack pcnt =>
  bytesToBlocks_packed (s := { State.reset with pack := pack, pcnt := pcnt })

end Sys2Proof.Machine
end

/-! PROOFS, continued: what a transaction does to ERR, ERRCODE and DONE (R270, R272, R34, R35), what it leaves alone outside IDLE (R191), and
that it does not read the key (R25). -/

section
namespace Sys2Proof.Machine

variable {s s' t : State}

/-! ## Errors are precise (R270, R272) -/

/-- The whole of an error: it is raised, and a read answers 0. -/
def State.fail (s : State) (c : ErrCode) (isWrite : Bool) : State :=
  { s with err := true, errCode := if s.err then s.errCode else c, rdata := if isWrite then s.rdata else some 0 }

/-- ERR, ERRCODE and DONE are as they were. -/
abbrev State.sameStatus (s t : State) : Prop := t.err = s.err ∧ t.errCode = s.errCode ∧ t.done = s.done

/-- An instruction fails, leaves the three alone, or is CLRSTAT. -/
theorem Effect.status_cases {i : Instr} (e : Effect s i t) :
    (∃ c, c ≠ .none ∧ t = s.fail c (encode i).isWrite) ∨ s.sameStatus t ∨ (i = .clrstat ∧ t = s.clearStatus) := by
  cases e with
  | underrun => exact .inl ⟨.underrun, nofun, rfl⟩
  | refuse c hc hna hnc hw =>
    rw [hw]
    exact .inl ⟨c, hc, rfl⟩
  | clrstat => exact .inr (.inr ⟨rfl, rfl⟩)
  | _ => exact .inr (.inl ⟨rfl, rfl, rfl⟩)

theorem code_ne_none (why : Reject) : Reject.code why ≠ .none := by
  cases why <;> nofun

theorem hostTransaction_status_cases {w : Transaction} (h : hostTransaction w s = .next t) :
    (∃ c, c ≠ .none ∧ t = s.fail c w.isWrite) ∨ s.sameStatus t ∨ (w = encode .clrstat ∧ t = s.clearStatus) := by
  obtain ⟨i, hi, he⟩ | ⟨why, -, rfl⟩ := hostTransaction_effect s h
  · rw [← isWrite_encode_of_decode hi]
    refine he.status_cases.imp_right (Or.imp_right fun ⟨hclr, ht⟩ => ⟨?_, ht⟩)
    subst hclr
    exact eq_encode_of_decode_write hi ((isWrite_encode_of_decode hi).symm.trans (assemble_isWrite ..))
  · exact .inl ⟨_, code_ne_none why, reject_eq s why _⟩

/-- Settles O44: a failing transaction does nothing else, and where ERR is set already, not even ERRCODE changes. -/
theorem errorsArePrecise : Obligations.ErrorsArePrecise := by
  intro s s' w rest hin hstep
  rw [step_of_host s hin] at hstep
  obtain ⟨c, hc, rfl⟩ | ⟨herr, hcode, -⟩ | ⟨hw, rfl⟩ := hostTransaction_status_cases hstep
  · refine ⟨fun h0 _ => ⟨c, hc, ?_⟩, fun h1 hne => absurd ?_ hne⟩
    · simp [State.fail, h0, State.withInputs]
    · simp [State.fail, h1]
  · exact ⟨fun h0 h1 => absurd (herr.symm.trans h1) (by simp [h0]), fun _ hne => absurd hcode hne⟩
  · exact ⟨fun _ => nofun, fun _ _ => hw⟩

/-! ## ERR, ERRCODE and DONE are sticky (R34, R35) -/

/-- Only BLK_DONE and SESS_CLOSE set DONE, and no core step clears it. -/
theorem coreTurn_done (s : State) : s.coreTurn.done = s.done ∨
    s.coreTurn.done = true ∧ ((s.st = .blkRun ∧ s.rnd = 32#6) ∨ (s.st = .sessWait ∧ s.fin = true ∧ s.pcnt = 0#4)) := by
  obtain ⟨e, -⟩ | ⟨-, e⟩ | ⟨h, e⟩ | ⟨-, e⟩ | ⟨-, e⟩ | ⟨h, e⟩ := coreTurn_spec s <;> rw [e]
  · exact .inl rfl
  · exact .inl rfl
  · exact .inr ⟨rfl, .inl h⟩
  · exact .inl rfl
  · exact .inl rfl
  · exact .inr ⟨rfl, .inr h⟩

/-- Settles O45: by the agent of the step. The core leaves ERR alone, a transaction sets no DONE, and reset clears both. -/
theorem onlyClrstatAndResetClearStatus : Obligations.OnlyClrstatAndResetClearStatus := by
  intro s t h
  obtain ⟨rest, hn, rfl⟩ | ⟨w, rest, hin, ht⟩ | ⟨rest, hin, rfl⟩ := step_cases h
  · obtain ⟨herr, hcode⟩ := coreTurn_err (s.withInputs rest)
    have herr' : (s.withInputs rest).coreTurn.err = s.err := herr
    have hdone := coreTurn_done (s.withInputs rest)
    refine ⟨fun _ _ => ⟨fun h1 => ⟨herr'.trans h1, hcode⟩, fun h1 => ?_⟩, fun h0 h1 => ?_, fun h0 h1 => ⟨⟨rest, hn⟩, ?_⟩⟩
    · exact hdone.elim (·.trans h1) And.left
    · exact absurd (herr'.symm.trans h1) (by simp [h0])
    · exact hdone.elim (fun e => absurd (e.symm.trans h1) (by simp [h0])) And.right
  · have hhead : s.inputs.head? = some (.host w) := congrArg List.head? hin
    obtain ⟨c, -, rfl⟩ | ⟨herr, hcode, hdone⟩ | ⟨rfl, rfl⟩ := hostTransaction_status_cases ht
    · refine ⟨fun _ _ => ⟨fun h1 => ⟨rfl, if_pos h1⟩, id⟩, fun _ _ => ⟨w, hhead⟩, fun h0 h1 => ?_⟩
      exact absurd (h0.symm.trans h1) nofun
    · refine ⟨fun _ _ => ⟨fun h1 => ⟨herr.trans h1, hcode⟩, hdone.trans⟩, fun _ _ => ⟨w, hhead⟩, fun h0 h1 => ?_⟩
      exact absurd ((hdone.trans h0).symm.trans h1) nofun
    · exact ⟨fun _ hclr => absurd hhead hclr, fun _ => nofun, fun _ => nofun⟩
  · exact ⟨fun hr => absurd (congrArg List.head? hin) hr, fun _ => nofun, fun _ => nofun⟩

/-! ## The key, the IV and BLK while an operation is in progress (R191) -/

/-- KEY, KEY_OK, IV and IV_OK are as they were. -/
abbrev State.sameOperands (s t : State) : Prop := t.key = s.key ∧ t.keyOk = s.keyOk ∧ t.iv = s.iv ∧ t.ivOk = s.ivOk

/-- Outside IDLE the locked writes are refused, and nothing else writes these registers or BLK. -/
theorem Effect.sameOperands {i : Instr} (e : Effect s i t) (hst : s.st ≠ .idle) : s.sameOperands t ∧ t.blk = s.blk := by
  cases e with
  | key0 d hi | key1 d hi | key2 d hi | key3 d hi | ivL d hi | ivR d hi | blkL d hi | blkR d hi => exact absurd hi hst
  | _ => exact ⟨⟨rfl, rfl, rfl, rfl⟩, rfl⟩

theorem sameOperands_of_hostTransaction {w : Transaction} (h : hostTransaction w s = .next t) (hst : s.st ≠ .idle) :
    s.sameOperands t ∧ t.blk = s.blk := by
  obtain ⟨i, -, he⟩ | ⟨why, -, rfl⟩ := hostTransaction_effect s h
  · exact he.sameOperands hst
  · rw [reject_eq]
    exact ⟨⟨rfl, rfl, rfl, rfl⟩, rfl⟩

/-- Of the core's steps, only BLK_DONE writes BLK. -/
theorem sameOperands_coreTurn (s : State) : s.sameOperands s.coreTurn ∧
    (s.coreTurn.blk = s.blk ∨ (s.st = .blkRun ∧ s.rnd = 32#6 ∧ s.coreTurn.blk = s.w ∧ s.coreTurn.st = .idle)) := by
  obtain ⟨e, -⟩ | ⟨-, e⟩ | ⟨⟨hst, hr⟩, e⟩ | ⟨-, e⟩ | ⟨-, e⟩ | ⟨-, e⟩ := coreTurn_spec s <;> rw [e]
  · exact ⟨⟨rfl, rfl, rfl, rfl⟩, .inl rfl⟩
  · exact ⟨⟨rfl, rfl, rfl, rfl⟩, .inl rfl⟩
  · exact ⟨⟨rfl, rfl, rfl, rfl⟩, .inr ⟨hst, hr, rfl, rfl⟩⟩
  all_goals exact ⟨⟨rfl, rfl, rfl, rfl⟩, .inl rfl⟩

/-- Settles O47: the lock refuses the host, and the core writes BLK only when the block command ends. -/
theorem keyIvAndBlockAreImmutableInAnOperation : Obligations.KeyIvAndBlockAreImmutableInAnOperation := by
  intro s t hst hr h
  obtain ⟨rest, -, rfl⟩ | ⟨w, rest, -, ht⟩ | ⟨rest, hin, -⟩ := step_cases h
  · obtain ⟨⟨hkey, hkeyOk, hiv, hivOk⟩, hblk⟩ := sameOperands_coreTurn (s.withInputs rest)
    exact ⟨hkey, hkeyOk, hiv, hivOk, hblk⟩
  · obtain ⟨⟨hkey, hkeyOk, hiv, hivOk⟩, hblk⟩ := sameOperands_of_hostTransaction (s := s.withInputs rest) ht hst
    exact ⟨hkey, hkeyOk, hiv, hivOk, .inl hblk⟩
  · exact absurd (congrArg List.head? hin) hr

/-! ## No transaction reads the key (R25) -/

/-- An outcome with its next state changed by `f`. -/
def mapNext (f : State → State) (o : Host.Outcome State Fault Refusal) : Host.Outcome State Fault Refusal :=
  match o with
  | .next t    => .next (f t)
  | .fault r   => .fault r
  | .refused r => .refused r

/-- A locked write from two states that differ in `f` ends in two states that do, when the write does. -/
theorem lockedWrite_comm (f : State → State) {u u' : State} (hst : (f s).st = s.st) (hraise : (f s).raise .writeLocked = f (s.raise .writeLocked))
    (hu : u' = f u) : (f s).lockedWrite u' = f (s.lockedWrite u) := by
  rw [State.lockedWrite, State.lockedWrite, hst, apply_ite f, hraise, hu]

/-- The write of a key word stores over one of the two keys' words, or is refused. -/
theorem exists_lockedWrite_withKey (k : Key) {u u' : State} (hu : u' = u.withKey u'.key) :
    ∃ k', (s.withKey k).lockedWrite u' = (s.lockedWrite u).withKey k' := by
  by_cases hst : s.st = .idle
  · rw [lockedWrite_of_idle s u hst, lockedWrite_of_idle (s.withKey k) u' hst]
    exact ⟨_, hu⟩
  · rw [lockedWrite_of_locked s u hst, lockedWrite_of_locked (s.withKey k) u' hst]
    exact ⟨k, rfl⟩

/-- With another key, an instruction does the same to everything but the key. -/
theorem exists_exec_withKey (i : Instr) (s : State) (k : Key) : ∃ k', exec i (s.withKey k) = mapNext (State.withKey k') (exec i s) := by
  cases i with
  | wrKey0 d | wrKey1 d | wrKey2 d | wrKey3 d =>
    refine (exists_lockedWrite_withKey k ?_).imp fun _ => congrArg Host.Outcome.next
    rfl
  | wrIvL d | wrIvR d | wrBlkL d | wrBlkR d =>
    exact ⟨k, congrArg Host.Outcome.next (lockedWrite_comm (State.withKey k) rfl rfl rfl)⟩
  | rdDout | wrDin d | start | finish =>
    refine ⟨k, ?_⟩
    simp only [exec, execRdDout, execWrDin, execStart, execFinish, apply_ite (mapNext _)]
    rfl
  | encBlock | decBlock =>
    refine ⟨k, ?_⟩
    simp only [exec, execEncBlock, execDecBlock, State.blockCommand, mapNext, apply_ite (State.withKey k)]
    rfl
  | _ => exact ⟨k, rfl⟩

theorem exists_hostTransaction_withKey (w : Transaction) (s : State) (k : Key) :
    ∃ k', hostTransaction w (s.withKey k) = mapNext (State.withKey k') (hostTransaction w s) := by
  cases hd : decode w with
  | ok i =>
    rw [hostTransaction_of_ok _ hd, hostTransaction_of_ok _ hd]
    exact exists_exec_withKey i s k
  | error why =>
    rw [hostTransaction_of_error _ hd, hostTransaction_of_error _ hd, reject_eq, reject_eq]
    exact ⟨k, rfl⟩

/-- Settles O48: the two runs of the transaction differ in the key alone. -/
theorem transactionsRevealNothingOfTheKey : Obligations.TransactionsRevealNothingOfTheKey := by
  intro s s' w rest k hin hstep
  obtain ⟨k', hk⟩ := exists_hostTransaction_withKey w (s.withInputs rest) k
  rw [step_of_host s hin] at hstep
  rw [hstep] at hk
  exact ⟨k', (step_of_host (s.withKey k) hin).trans hk⟩

end Sys2Proof.Machine
end

/-! PROOFS, continued: what no operation reads any more is unobservable (93 I17, I18). Two states that look the same differ in hidden registers
only, so the second is the first with other hidden values; most instructions carry these along, and the others set or read them where the two
states agree. -/

section
namespace Sys2Proof.Machine

variable {s t s' t' : State}

/-! ## Other values in the hidden registers -/

/-- The registers that a state need not agree in where nothing reads them (R39 to R43, R45). -/
structure Hidden where
  cdir  : Dir
  cmode : Mode
  w     : Block
  sum   : Word
  rnd   : BitVec 6
  inBlk : Block
  obuf  : Vector Byte 8

def State.hidden (s : State) : Hidden := ⟨s.cdir, s.cmode, s.w, s.sum, s.rnd, s.inBlk, s.obuf⟩

def State.withHidden (v : Hidden) (s : State) : State :=
  { s with cdir := v.cdir, cmode := v.cmode, w := v.w, sum := v.sum, rnd := v.rnd, inBlk := v.inBlk, obuf := v.obuf }

/-- Where an operation in progress reads a hidden register of `s`, the value in `v` is the same: the last clauses of `sameLive`. -/
structure State.agrees (s : State) (v : Hidden) : Prop where
  cdir : s.st ≠ .idle → s.cdir = v.cdir
  cmode : s.session = true → s.cmode = v.cmode
  datapath : s.busy = true → s.w = v.w ∧ s.sum = v.sum ∧ s.rnd = v.rnd
  inBlk : s.st = .sessRun → s.inBlk = v.inBlk
  obuf : s.ocnt ≠ 0#4 → s.obuf = v.obuf

/-- The states that look the same as `s` are `s` with other hidden values that agree. -/
theorem State.agrees.sameLive {v : Hidden} (h : s.agrees v) : s.sameLive (s.withHidden v) := by
  obtain ⟨hcdir, hcmode, hdatapath, hin, hobuf⟩ := h
  exact ⟨rfl, rfl, rfl, rfl, rfl, rfl, rfl, rfl, rfl, rfl, rfl, rfl, rfl, rfl, rfl, rfl, rfl, rfl, rfl,
    hcdir, hcmode, hdatapath, hin, hobuf⟩

theorem exists_agrees_of_sameLive (h : s.sameLive t) : ∃ v, s.agrees v ∧ t = s.withHidden v := by
  obtain ⟨hinputs, hrdata, hctrl, hkey, hkeyOk, hiv, hivOk, hblk, hchain, hlen, hnblk, hdone, herr, hcode, hst, hfin, hpack, hpcnt, hocnt,
    hcdir, hcmode, hdatapath, hin, hobuf⟩ := h
  refine ⟨t.hidden, ⟨hcdir, hcmode, hdatapath, hin, hobuf⟩, ?_⟩
  rw [State.withHidden, hinputs, hrdata, hctrl, hkey, hkeyOk, hiv, hivOk, hblk, hchain, hlen, hnblk, hdone, herr, hcode, hst, hfin, hpack,
    hpcnt, hocnt]
  rfl

/-- The hidden values of the second state are the ones to look at. -/
theorem exists_agrees (ht : t' = t.withHidden t'.hidden) (h : t.agrees t'.hidden) : ∃ v, t' = t.withHidden v ∧ t.agrees v :=
  ⟨t'.hidden, ht, h⟩

/-- What an update asks for that touches neither st, OCNT nor a hidden register. -/
theorem State.agrees.of_frame {v : Hidden} (h : s.agrees v) (hst : t.st = s.st) (hocnt : t.ocnt = s.ocnt) (hhidden : t.hidden = s.hidden) :
    t.agrees v := by
  obtain ⟨hcdir, hcmode, hdatapath, hin, hobuf⟩ := h
  obtain ⟨ecdir, ecmode, ew, esum, ernd, ein, eobuf⟩ := Hidden.mk.inj hhidden
  constructor
  · rw [hst, ecdir]; exact hcdir
  · rw [session_congr hst, ecmode]; exact hcmode
  · rw [busy_congr hst, ew, esum, ernd]; exact hdatapath
  · rw [hst, ein]; exact hin
  · rw [hocnt, eobuf]; exact hobuf

/-! ## The transactions -/

/-- The instructions that set or read a hidden register. -/
def touchesHidden : Instr → Bool
  | .rdDout | .encBlock | .decBlock | .start | .abort => true
  | _ => false

/-- Any other instruction carries the hidden registers along. -/
theorem exec_withHidden {i : Instr} (hi : touchesHidden i = false) (s : State) (v : Hidden) :
    exec i (s.withHidden v) = mapNext (State.withHidden v) (exec i s) := by
  cases i with
  | rdDout | encBlock | decBlock | start | abort => cases hi
  | wrKey0 d | wrKey1 d | wrKey2 d | wrKey3 d | wrIvL d | wrIvR d | wrBlkL d | wrBlkR d =>
    exact congrArg Host.Outcome.next (lockedWrite_comm (State.withHidden v) rfl rfl rfl)
  | wrDin d | finish =>
    simp only [exec, execWrDin, execFinish, apply_ite (mapNext _)]
    rfl
  | _ => rfl

theorem Effect.frame_of_not_touchesHidden {i : Instr} (e : Effect s i t) (hi : touchesHidden i = false) :
    t.st = s.st ∧ t.ocnt = s.ocnt ∧ t.hidden = s.hidden := by
  cases e with
  | underrun | pop | encBlock | decBlock | start | abort => cases hi
  | _ => exact ⟨rfl, rfl, rfl⟩

theorem State.agrees.raise {v : Hidden} (h : s.agrees v) (c : ErrCode) : (s.raise c).agrees v := h.of_frame rfl rfl rfl

theorem State.agrees.answer {v : Hidden} (h : s.agrees v) (x : Word) : (s.answer x).agrees v := h.of_frame rfl rfl rfl

/-- The next byte is read where OBUF is in agreement, and the pop leaves no more of it to agree in. -/
theorem exec_rdDout_agrees {v : Hidden} (h : s.agrees v) (e : exec .rdDout s = .next t) :
    exec .rdDout (s.withHidden v) = .next (t.withHidden v) ∧ t.agrees v := by
  by_cases ho : s.ocnt = 0#4
  · rw [exec_rdDout_of_empty ho] at e
    obtain rfl := Host.Outcome.next.inj e
    exact ⟨exec_rdDout_of_empty (s := s.withHidden v) ho, (h.raise _).answer _⟩
  · rw [exec_rdDout_of_filled ho] at e
    obtain rfl := Host.Outcome.next.inj e
    have hnext : (s.withHidden v).nextOut = s.nextOut := by
      rw [State.nextOut, State.nextOut, h.obuf ho]
      rfl
    obtain ⟨hcdir, hcmode, hdatapath, hin, hobuf⟩ := h
    refine ⟨?_, ⟨hcdir, hcmode, hdatapath, hin, fun _ => hobuf ho⟩⟩
    rw [exec_rdDout_of_filled (s := s.withHidden v) ho, hnext]
    rfl

/-- A block command begins with registers that it sets itself; refused, it carries the hidden ones along. -/
theorem blockCommand_agrees {v : Hidden} (h : s.agrees v) (d : Dir) :
    ∃ v', (s.withHidden v).blockCommand d = (s.blockCommand d).withHidden v' ∧ (s.blockCommand d).agrees v' := by
  by_cases hst : s.st = .idle
  case neg =>
    rw [blockCommand_of_not_idle d hst, blockCommand_of_not_idle (s := s.withHidden v) d hst]
    exact ⟨v, rfl, h.raise _⟩
  by_cases hkey : s.keyOk = 0b1111#4
  case neg =>
    rw [blockCommand_of_malformed_key d hst hkey, blockCommand_of_malformed_key (s := s.withHidden v) d hst hkey]
    exact ⟨v, rfl, h.raise _⟩
  rw [blockCommand_of_key d hst hkey, blockCommand_of_key (s := s.withHidden v) d hst hkey]
  exact exists_agrees rfl ⟨fun _ => rfl, nofun, fun _ => ⟨rfl, rfl, rfl⟩, nofun, h.obuf⟩

/-- The first of START's checks that fails, where one does (R224). -/
def State.startRefusal (s : State) : ErrCode :=
  if s.st ≠ .idle then .busy else if s.ocnt ≠ 0#4 then .outputPending else if s.keyOk ≠ 0b1111#4 then .keyMalformed else .ivMalformed

theorem exec_start_of_refused (h : ¬ s.acceptsStart) : exec .start s = .next (s.raise s.startRefusal) := by
  have hiv (hst : s.st = .idle) (hout : s.ocnt = 0#4) (hkey : s.keyOk = 0b1111#4) : s.ctrl.mode = .cbc ∧ s.ivOk ≠ 0b11#2 :=
    Classical.not_imp.mp fun hiv => h ⟨hst, hout, hkey, hiv⟩
  simp only [exec, execStart, State.startRefusal]
  split
  · rfl
  next hst =>
    split
    · rfl
    next hout =>
      split
      · rfl
      next hkey => rw [if_pos (hiv (not_not.mp hst) (not_not.mp hout) (not_not.mp hkey))]

/-- A session latches its mode and direction; the datapath is not read before the take sets it. -/
theorem exec_start_agrees {v : Hidden} (h : s.agrees v) (e : exec .start s = .next t) :
    ∃ v', exec .start (s.withHidden v) = .next (t.withHidden v') ∧ t.agrees v' := by
  by_cases ha : s.acceptsStart
  · rw [exec_start_of_acceptsStart ha] at e
    obtain rfl := Host.Outcome.next.inj e
    rw [exec_start_of_acceptsStart (s := s.withHidden v) ha]
    exact ⟨(s.withHidden v).openSession.hidden, rfl, fun _ => rfl, fun _ => rfl, nofun, nofun, h.obuf⟩
  · rw [exec_start_of_refused ha] at e
    obtain rfl := Host.Outcome.next.inj e
    exact ⟨v, exec_start_of_refused (s := s.withHidden v) ha, h.raise _⟩

/-- No instruction tells the two states apart. -/
theorem exec_agrees {i : Instr} {v : Hidden} (h : s.agrees v) (e : exec i s = .next t) :
    ∃ v', exec i (s.withHidden v) = .next (t.withHidden v') ∧ t.agrees v' := by
  cases hi : touchesHidden i with
  | false =>
    obtain ⟨hst, hocnt, hhidden⟩ := (exec_effect s e).frame_of_not_touchesHidden hi
    exact ⟨v, by rw [exec_withHidden hi, e]; rfl, h.of_frame hst hocnt hhidden⟩
  | true =>
    cases i with
    | rdDout => exact ⟨v, exec_rdDout_agrees h e⟩
    | encBlock | decBlock =>
      obtain rfl := Host.Outcome.next.inj e
      obtain ⟨v', hv, ha⟩ := blockCommand_agrees h _
      exact ⟨v', congrArg _ hv, ha⟩
    | start => exact exec_start_agrees h e
    | abort =>
      obtain rfl := Host.Outcome.next.inj e
      exact ⟨(s.withHidden v).abortWork.hidden, rfl, nofun, nofun, nofun, nofun, fun _ => rfl⟩
    | _ => cases hi

theorem hostTransaction_agrees {w : Transaction} {v : Hidden} (h : s.agrees v) (e : hostTransaction w s = .next t) :
    ∃ v', hostTransaction w (s.withHidden v) = .next (t.withHidden v') ∧ t.agrees v' := by
  cases hd : decode w with
  | ok i =>
    rw [hostTransaction_of_ok _ hd] at e ⊢
    exact exec_agrees h e
  | error why =>
    rw [hostTransaction_of_error _ hd] at e ⊢
    obtain rfl := Host.Outcome.next.inj e
    rw [reject_eq, reject_eq]
    exact ⟨v, rfl, h.of_frame rfl rfl rfl⟩

/-! ## The turn of the core -/

/-- RND is read in BLK_RUN and SESS_RUN only, where the states agree in it. -/
theorem enabled_withHidden {v : Hidden} (h : s.agrees v) (c : CoreStep) : c.enabled (s.withHidden v) = c.enabled s := by
  cases hb : s.busy with
  | true =>
    obtain ⟨-, -, hr⟩ := h.datapath hb
    have hr' : (s.withHidden v).rnd = s.rnd := hr.symm
    cases c with
    | sessTake | sessClose => rfl
    | blkRound | blkDone | sessRound | sessEmit =>
      rw [CoreStep.enabled, hr']
      rfl
  | false =>
    obtain ⟨hblk, hsess⟩ := Bool.or_eq_false_iff.mp hb
    have hblk' : ((s.withHidden v).st == .blkRun) = false := hblk
    have hsess' : ((s.withHidden v).st == .sessRun) = false := hsess
    cases c with
    | sessTake | sessClose => rfl
    | blkRound | blkDone => rw [CoreStep.enabled, CoreStep.enabled, hblk, hblk', Bool.false_and, Bool.false_and]
    | sessRound | sessEmit => simp only [CoreStep.enabled, hsess, hsess', Bool.false_and]

/-- A round reads the registers of its direction, in which the states agree while the block is busy. -/
theorem roundStep_agrees {v : Hidden} (h : s.agrees v) (hb : s.st = .blkRun ∨ s.st = .sessRun) :
    ∃ v', (s.withHidden v).roundStep = s.roundStep.withHidden v' ∧ s.roundStep.agrees v' := by
  obtain ⟨cdir, cmode, w, sum, rnd, inBlk, obuf⟩ := v
  obtain ⟨hcdir, hcmode, hdatapath, hin, hobuf⟩ := h
  obtain rfl : s.cdir = cdir := hcdir (by obtain hb | hb := hb <;> simp [hb])
  obtain ⟨rfl, rfl, rfl⟩ : s.w = w ∧ s.sum = sum ∧ s.rnd = rnd := hdatapath ((busy_iff s).mpr hb)
  exact exists_agrees rfl ⟨fun _ => rfl, hcmode, fun _ => ⟨rfl, rfl, rfl⟩, hin, hobuf⟩

/-- A core step reads hidden registers of its own operation only, in which the states agree. -/
theorem perform_agrees {v : Hidden} (h : s.agrees v) {c : CoreStep} (hc : c.enabled s = true) :
    ∃ v', c.perform (s.withHidden v) = (c.perform s).withHidden v' ∧ (c.perform s).agrees v' := by
  cases c with
  | blkRound =>
    obtain ⟨hst, -⟩ := (blkRound_enabled_iff s).mp hc
    exact roundStep_agrees h (.inl hst)
  | sessRound =>
    obtain ⟨hst, -⟩ := (sessRound_enabled_iff s).mp hc
    exact roundStep_agrees h (.inr hst)
  | blkDone =>
    obtain ⟨cdir, cmode, w, sum, rnd, inBlk, obuf⟩ := v
    obtain ⟨hst, -⟩ := (blkDone_enabled_iff s).mp hc
    obtain ⟨rfl, -, -⟩ : s.w = w ∧ s.sum = sum ∧ s.rnd = rnd := h.datapath ((busy_iff s).mpr (.inl hst))
    exact exists_agrees rfl ⟨nofun, nofun, nofun, nofun, h.obuf⟩
  | sessTake =>
    obtain ⟨cdir, cmode, w, sum, rnd, inBlk, obuf⟩ := v
    obtain ⟨hst, -⟩ := (sessTake_enabled_iff s).mp hc
    obtain rfl : s.cdir = cdir := h.cdir (by simp [hst])
    obtain rfl : s.cmode = cmode := h.cmode ((session_iff s).mpr (.inl hst))
    exact exists_agrees rfl ⟨fun _ => rfl, fun _ => rfl, fun _ => ⟨rfl, rfl, rfl⟩, fun _ => rfl, h.obuf⟩
  | sessEmit =>
    obtain ⟨cdir, cmode, w, sum, rnd, inBlk, obuf⟩ := v
    obtain ⟨hst, -⟩ := (sessEmit_enabled_iff s).mp hc
    obtain rfl : s.cdir = cdir := h.cdir (by simp [hst])
    obtain rfl : s.cmode = cmode := h.cmode ((session_iff s).mpr (.inr hst))
    obtain ⟨rfl, -, -⟩ : s.w = w ∧ s.sum = sum ∧ s.rnd = rnd := h.datapath ((busy_iff s).mpr (.inr hst))
    obtain rfl : s.inBlk = inBlk := h.inBlk hst
    exact exists_agrees rfl ⟨fun _ => rfl, fun _ => rfl, nofun, nofun, fun _ => rfl⟩
  | sessClose => exact ⟨v, rfl, nofun, nofun, nofun, nofun, h.obuf⟩

theorem coreTurn_agrees {v : Hidden} (h : s.agrees v) :
    ∃ v', (s.withHidden v).coreTurn = s.coreTurn.withHidden v' ∧ s.coreTurn.agrees v' := by
  obtain ⟨e, hnone⟩ | ⟨c, hc, e⟩ := coreTurn_cases s
  · obtain ⟨e', -⟩ | ⟨c, hc, -⟩ := coreTurn_cases (s.withHidden v)
    · rw [e, e']
      exact ⟨v, rfl, h⟩
    · rw [enabled_withHidden h, hnone c] at hc
      cases hc
  · have hc' : c.enabled (s.withHidden v) = true := (enabled_withHidden h c).trans hc
    rw [e, coreTurn_of_enabled hc']
    exact perform_agrees h hc

/-! ## The statement -/

theorem State.agrees.withInputs {v : Hidden} (h : s.agrees v) (us : List Turn) : (s.withInputs us).agrees v := h.of_frame rfl rfl rfl

/-- No step tells the two states apart: it answers two that agree again. -/
theorem step_agrees {v : Hidden} (h : s.agrees v) (e : step s = .next t) :
    ∃ v', step (s.withHidden v) = .next (t.withHidden v') ∧ t.agrees v' := by
  obtain ⟨rest, hn, rfl⟩ | ⟨w, rest, hin, ht⟩ | ⟨rest, hin, rfl⟩ := step_cases e
  · obtain ⟨v', hv, ha⟩ := coreTurn_agrees (h.withInputs rest)
    exact ⟨v', (step_of_coreNext (s.withHidden v) hn).trans (congrArg _ hv), ha⟩
  · obtain ⟨v', hv, ha⟩ := hostTransaction_agrees (h.withInputs rest) ht
    exact ⟨v', (step_of_host (s.withHidden v) hin).trans hv, ha⟩
  · exact ⟨State.reset.hidden, step_of_reset (s.withHidden v) hin, nofun, nofun, nofun, nofun, fun hne => absurd rfl hne⟩

/-- Settles O49: STATUS and IRQ show no hidden register, and every step keeps the agreement in those that an operation reads. -/
theorem staleStateIsUnobservable : Obligations.StaleStateIsUnobservable := by
  intro s t h
  obtain ⟨v, ha, rfl⟩ := exists_agrees_of_sameLive h
  refine ⟨rfl, rfl, fun s' hstep => ?_⟩
  obtain ⟨v', hstep', ha'⟩ := step_agrees ha hstep
  exact ⟨_, hstep', ha'.sameLive⟩

end Sys2Proof.Machine
end

/-! PROOFS, continued: runs of a known length. First what each run of transactions or rounds does, by induction on its length; then the load
pseudo-instructions (R91), a block command at any point (R260), a session block (R254) and the bytes read so far (R173). -/

section
namespace Sys2Proof.Machine

variable {s s0 t u : State}

/-! ## The load pseudo-instructions (R91, R304) -/

/-- A run whose first turn is a write that the open lock lets through. -/
theorem run_of_unlocked {i : Instr} {us : List Turn} {o : Host.Outcome State Fault Refusal} (n : Nat) (write : State → State)
    (hst : s.st = .idle) (hi : exec i (s.withInputs us) = .next ((s.withInputs us).lockedWrite ((write s).withInputs us)))
    (h : core.run n ((write s).withInputs us) = o) : core.run (n + 1) (s.withInputs (.host (encode i) :: us)) = o := by
  rw [lockedWrite_of_idle (s.withInputs us) _ hst] at hi
  exact (run_succ n ((step_of_encode i us).trans hi)).trans h

theorem keyOk_of_four_writes (m : BitVec 4) : m ||| 0b0001#4 ||| 0b0010#4 ||| 0b0100#4 ||| 0b1000#4 = 0b1111#4 := by
  revert m; decide

theorem ivOk_of_two_writes (m : BitVec 2) : m ||| 0b01#2 ||| 0b10#2 = 0b11#2 := by
  revert m; decide

/-- The eight writes of `keyload`, `ivload` and `blkload`, in order. -/
def State.loadAll (s : State) (k : Key) (iv b : Block) : State :=
  (((((((s.putKey0 k.k0).putKey1 k.k1).putKey2 k.k2).putKey3 k.k3).putIvL iv.l).putIvR iv.r).putBlkL b.l).putBlkR b.r

/-- Nothing of the registers' old values is left, and both masks are full. -/
theorem loadAll_eq (s : State) (k : Key) (iv b : Block) :
    s.loadAll k iv b = { s with key := k, keyOk := 0b1111#4, iv := iv, ivOk := 0b11#2, blk := b } := by
  simp only [State.loadAll, State.putKey0, State.putKey1, State.putKey2, State.putKey3, State.putIvL, State.putIvR, State.putBlkL,
    State.putBlkR, keyOk_of_four_writes, ivOk_of_two_writes]

/-- Settles O59: eight writes, none of which leaves IDLE, so none is refused. -/
theorem loadPseudoInstructionsLoad : Obligations.LoadPseudoInstructionsLoad := by
  intro s a b c d l r x y hst
  have hrun : core.run 8 (s.withInputs
      [.host (encode (.wrKey0 a)), .host (encode (.wrKey1 b)), .host (encode (.wrKey2 c)), .host (encode (.wrKey3 d)),
        .host (encode (.wrIvL l)), .host (encode (.wrIvR r)), .host (encode (.wrBlkL x)), .host (encode (.wrBlkR y))]) =
      .next ((s.loadAll ⟨a, b, c, d⟩ ⟨l, r⟩ ⟨x, y⟩).withInputs []) :=
    run_of_unlocked 7 (·.putKey0 a) hst rfl <| run_of_unlocked 6 (·.putKey1 b) hst rfl <| run_of_unlocked 5 (·.putKey2 c) hst rfl <|
    run_of_unlocked 4 (·.putKey3 d) hst rfl <| run_of_unlocked 3 (·.putIvL l) hst rfl <| run_of_unlocked 2 (·.putIvR r) hst rfl <|
    run_of_unlocked 1 (·.putBlkL x) hst rfl <| run_of_unlocked 0 (·.putBlkR y) hst rfl rfl
  rw [loadAll_eq] at hrun
  exact hrun

/-! ## Pushes (R170, R196) -/

/-- A push into an open session is stored, or dropped because the packer is full. -/
theorem hostTransaction_push_of_session (x : Byte) (hs : s.session = true) (hf : s.fin = false) (hmax : s.len ≠ 0xFFFFFFFF#32) :
    hostTransaction (pushTransaction x) s = if s.pcnt = 8#4 then .next (s.raise .overrun) else .next (s.pushByte x) := by
  have hx : byteOperand (BitVec.setWidth 32 x) = x := byteOperand_zextByte x
  have hexec := exec_wrDin_of_session (BitVec.setWidth 32 x) hs hf
  rw [if_neg hmax, hx] at hexec
  exact (hostTransaction_push x s).trans hexec

theorem step_of_push {us : List Turn} (x : Byte) (hs : s.session = true) (hf : s.fin = false) (hmax : s.len ≠ 0xFFFFFFFF#32)
    (hp : s.pcnt ≠ 8#4) : step (s.withInputs (.host (pushTransaction x) :: us)) = .next ((s.pushByte x).withInputs us) := by
  rw [step_of_host (s.withInputs (.host (pushTransaction x) :: us)) rfl]
  exact (hostTransaction_push_of_session (s := s.withInputs us) x hs hf hmax).trans (if_neg hp)

/-- The packer after a byte sequence. -/
def State.pushBytes (s : State) (xs : List Byte) : State := xs.foldl State.pushByte s

/-- There is room for the bytes: in the packer, and in LEN. -/
abbrev State.hasRoom (s : State) (n : Nat) : Prop := s.pcnt.toNat + n ≤ 8 ∧ s.len.toNat + n < 2 ^ 32

theorem hasRoom_pushByte (x : Byte) {n : Nat} (h : s.hasRoom (n + 1)) :
    (s.pushByte x).hasRoom n ∧ (s.pushByte x).pcnt.toNat = s.pcnt.toNat + 1 ∧ (s.pushByte x).len.toNat = s.len.toNat + 1 := by
  obtain ⟨hp, hl⟩ := h
  have hpcnt : (s.pushByte x).pcnt.toNat = s.pcnt.toNat + 1 := by rw [pushByte_pcnt]; bv_omega
  have hlen : (s.pushByte x).len.toNat = s.len.toNat + 1 := by rw [pushByte_len]; bv_omega
  exact ⟨⟨by omega, by omega⟩, hpcnt, hlen⟩

/-- With room for all of them, every push is stored. -/
theorem run_pushes (xs : List Byte) (hs : s.session = true) (hf : s.fin = false) (hroom : s.hasRoom xs.length) :
    core.run xs.length (s.withInputs (xs.map fun x => .host (pushTransaction x))) = .next ((s.pushBytes xs).withInputs []) := by
  induction xs generalizing s with
  | nil => rfl
  | cons x xs ih =>
    obtain ⟨hroom', -⟩ := hasRoom_pushByte x hroom
    obtain ⟨hp, hl⟩ := hroom
    rw [List.length_cons] at hp hl
    exact (run_succ _ (step_of_push x hs hf (by bv_omega) (by bv_omega))).trans (ih (s := s.pushByte x) hs hf hroom')

theorem pushBytes_counts (xs : List Byte) (hroom : s.hasRoom xs.length) :
    (s.pushBytes xs).pcnt.toNat = s.pcnt.toNat + xs.length ∧ (s.pushBytes xs).len.toNat = s.len.toNat + xs.length := by
  induction xs generalizing s with
  | nil => exact ⟨rfl, rfl⟩
  | cons x xs ih =>
    obtain ⟨hroom', hpcnt, hlen⟩ := hasRoom_pushByte x hroom
    obtain ⟨hp, hl⟩ := ih hroom'
    rw [List.length_cons]
    exact ⟨by rw [hpcnt] at hp; exact hp.trans (by omega), by rw [hlen] at hl; exact hl.trans (by omega)⟩

theorem packed_pushBytes (xs : List Byte) (hroom : s.hasRoom xs.length) : (s.pushBytes xs).packed = s.packed ++ xs := by
  induction xs generalizing s with
  | nil => exact (List.append_nil _).symm
  | cons x xs ih =>
    obtain ⟨hroom', -⟩ := hasRoom_pushByte x hroom
    obtain ⟨hp, -⟩ := hroom
    rw [List.length_cons] at hp
    rw [List.append_cons, ← packed_pushByte x (by omega)]
    exact ih hroom'

/-- Pushes touch only the packer and the counters. -/
theorem pushBytes_frame (xs : List Byte) (s : State) :
    { s.pushBytes xs with inputs := [], pack := s.pack, pcnt := s.pcnt, len := s.len } = s.withInputs [] := by
  induction xs generalizing s with
  | nil => rfl
  | cons x xs ih =>
    have h := congrArg (fun t : State => { t with pack := s.pack, pcnt := s.pcnt, len := s.len }) (ih (s.pushByte x))
    exact h

/-- Eight packed bytes are the bytes of the Block that the take gives. -/
theorem takeBlock_of_packed {b : Block} (h : s.packed = (bytesOfBlock b).toList) (hfull : s.pcnt = 8#4) : takeBlock s.pack s.pcnt = b := by
  have hpad : pad s.packed = s.packed := pad_of_multiple (by rw [h, Vector.length_toList])
  have hbytes : bytesOfBlock (takeBlock s.pack s.pcnt) = bytesOfBlock b := by
    apply Vector.toList_inj.mp
    rw [bytesOfBlock_takeBlock (by rw [hfull]; decide) (by rw [hfull]; decide), hpad, h]
  rw [← blockOfBytes_bytesOfBlock (takeBlock s.pack s.pcnt), hbytes, blockOfBytes_bytesOfBlock]

/-- The transactions of two `pushw` lines are the pushes of the Block's bytes (R91, R163). -/
theorem expandAll_pushw (x y : Word) :
    (expandAll [.pushw x, .pushw y]).map Turn.host = (bytesOfBlock ⟨x, y⟩).toList.map fun x => .host (pushTransaction x) := rfl

/-- Settles O60: the eight bytes stand in the packer in order, and they are the bytes of the Block. -/
theorem pushwPacksBigEndianWords : Obligations.PushwPacksBigEndianWords := by
  intro s x y hs hf hp hl
  rw [expandAll_pushw]
  have hlength : (bytesOfBlock ⟨x, y⟩).toList.length = 8 := Vector.length_toList
  generalize hxs : (bytesOfBlock ⟨x, y⟩).toList = xs at hlength
  have hroom : s.hasRoom xs.length := ⟨by rw [hlength, hp]; exact Nat.le_refl 8, by rw [hlength]; exact hl⟩
  have hrun := run_pushes xs hs hf hroom
  obtain ⟨hpcnt, hlen⟩ := pushBytes_counts xs hroom
  have hpacked := packed_pushBytes xs hroom
  rw [packed_of_empty hp, List.nil_append] at hpacked
  rw [hlength, hp] at hpcnt
  rw [hlength] at hrun hlen
  have hfull : (s.pushBytes xs).pcnt = 8#4 := BitVec.eq_of_toNat_eq hpcnt
  exact ⟨_, hrun, hfull, hlen, takeBlock_of_packed (hpacked.trans hxs.symm) hfull, pushBytes_frame xs s⟩

/-! ## A block command at any point (R260) -/

/-- Settles O52: the command begins with no round done, and every turn that keeps the work keeps the invariant. -/
theorem blockCommandRoundInvariant : Obligations.BlockCommandRoundInvariant := by
  intro s d us hst hkey hkeep hcount command rounds
  have hbegin : step (s.withInputs (.host (encode command) :: us)) = .next ((s.withInputs us).beginBlock d) :=
    step_of_block_command rfl hst hkey
  obtain ⟨t, hrun, ⟨htst, htd, htk, htb, hr, -, hrounds⟩, -⟩ :=
    run_of_runsBlock (rest := []) (runsBlock_beginBlock (s.withInputs us) d) (List.append_nil us).symm hkeep (by omega)
  rw [Nat.zero_add] at hr
  refine ⟨t, (run_succ _ hbegin).trans hrun, htst, htd, hr, ?_, htb, htk⟩
  rw [hrounds, htd, htk, hr]
  cases d <;> rfl

/-! ## A session block (R254) -/

/-- With a silent host, the enabled step of the core is the next step. -/
theorem step_of_silent {c : CoreStep} (hin : s.inputs = []) (hc : c.enabled s = true) : step s = .next (c.perform s) :=
  (step_of_empty s hin).trans (congrArg _ (coreTurn_of_enabled hc))

/-- Other values in the datapath. -/
def State.withDatapath (s : State) (w : Block) (sum : Word) (rnd : BitVec 6) : State := { s with w := w, sum := sum, rnd := rnd }

/-- With a silent host, the core's next `n` steps in SESS_RUN are rounds, as long as there are that many left. -/
theorem run_rounds {b : Block} (n : Nat) (hin : s.inputs = []) (hst : s.st = .sessRun) (hle : s.rnd.toNat + n ≤ 32) (hb : s.inRounds b) :
    ∃ w sum rnd, core.run n s = .next (s.withDatapath w sum rnd) ∧ rnd.toNat = s.rnd.toNat + n ∧ (s.withDatapath w sum rnd).inRounds b := by
  induction n with
  | zero => exact ⟨s.w, s.sum, s.rnd, rfl, rfl, hb⟩
  | succ n ih =>
    obtain ⟨w, sum, rnd, hrun, hr, hb'⟩ := ih (by omega)
    have hlt : rnd < 32#6 := by bv_omega
    have hstep : step (s.withDatapath w sum rnd) = .next (s.withDatapath w sum rnd).roundStep :=
      step_of_silent (s := s.withDatapath w sum rnd) hin ((sessRound_enabled_iff (s.withDatapath w sum rnd)).mpr ⟨hst, hlt⟩)
    have hr' : (rnd + 1).toNat = s.rnd.toNat + (n + 1) := by bv_omega
    exact ⟨_, _, rnd + 1, run_snoc n hrun hstep, hr', hb'.roundStep hlt⟩

/-- Settles O54: the take, 32 rounds and the emit. -/
theorem sessionBlockTakesThirtyFourSteps : Obligations.SessionBlockTakesThirtyFourSteps := by
  intro s hin hst hp ho b wf
  have htake : step s = .next s.takeInput := step_of_silent hin ((sessTake_enabled_iff s).mpr ⟨hst, hp⟩)
  have hbegin : s.takeInput.inRounds (modeIn s.cmode s.cdir b s.chain) := ⟨Nat.zero_le _, (roundsIn_zero ..).symm⟩
  obtain ⟨w, sum, rnd, hrun, hr, hrounds⟩ := run_rounds 32 (s := s.takeInput) hin rfl (Nat.le_refl 32) hbegin
  have hr32 : rnd = 32#6 := BitVec.eq_of_toNat_eq hr
  have hw : w = wf := hrounds.w_eq_primitive hr32
  have hemit : step (s.takeInput.withDatapath w sum rnd) = .next (s.takeInput.withDatapath w sum rnd).emitOutput :=
    step_of_silent (s := s.takeInput.withDatapath w sum rnd) hin ((sessEmit_enabled_iff (s.takeInput.withDatapath w sum rnd)).mpr ⟨rfl, hr32, ho⟩)
  rw [← hw]
  exact ⟨_, (run_succ 33 htake).trans (run_snoc 32 hrun hemit), rfl, rfl, rfl, rfl, rfl, rfl, rfl, rfl⟩

/-! ## The bytes read so far (R173, R262) -/

/-- Settles O56: the order of reads is kept by every turn of a trace. -/
theorem hostReadsTheEmittedBytesInOrder : Obligations.HostReadsTheEmittedBytesInOrder := by
  intro s0 s din out dout h
  obtain ⟨-, hreads⟩ := h.readsInOrder
  exact hreads

end Sys2Proof.Machine
end

/-! PROOFS, continued: the block left to itself comes to rest (R252, R255). A measure that every core step lowers bounds the steps still to come;
a fair run takes each of them, as the host's moves leave alone what the core looks at while the program stays where it is. -/

section
namespace Sys2Proof.Machine

variable {s t : State}

/-! ## The core steps still to come -/

/-- The packer holds a Block that SESS_TAKE would take (R240). -/
def State.blockPacked (s : State) : Bool := s.pcnt == 8#4 || (s.fin && decide (1#4 ≤ s.pcnt) && decide (s.pcnt ≤ 7#4))

/-- A bound on the core steps that a silent host leaves to come. In SESS_RUN these are the rounds left and, where OBUF is free, the emit; after
it, either the close, or the take and 32 rounds of the Block in the packer, which then waits for OBUF. -/
def State.stepsLeft (s : State) : Nat :=
  match s.st with
  | .idle     => 0
  | .blkRun   => 33 - s.rnd.toNat
  | .sessWait => if s.blockPacked then (if s.ocnt = 0#4 then 35 else 33) else 1
  | .sessRun  => 32 - s.rnd.toNat + if s.ocnt = 0#4 then (if s.blockPacked then 34 else 2) else 0

theorem stepsLeft_le (s : State) : s.stepsLeft ≤ 66 := by
  unfold State.stepsLeft
  split
  · omega
  · omega
  · split_ifs <;> omega
  · split_ifs <;> omega

theorem stepsLeft_of_blkRun (h : s.st = .blkRun) : s.stepsLeft = 33 - s.rnd.toNat := by
  rw [State.stepsLeft, h]

theorem stepsLeft_of_sessWait (h : s.st = .sessWait) :
    s.stepsLeft = if s.blockPacked then (if s.ocnt = 0#4 then 35 else 33) else 1 := by
  rw [State.stepsLeft, h]

theorem stepsLeft_of_sessRun (h : s.st = .sessRun) :
    s.stepsLeft = 32 - s.rnd.toNat + if s.ocnt = 0#4 then (if s.blockPacked then 34 else 2) else 0 := by
  rw [State.stepsLeft, h]

theorem stepsLeft_of_idle (h : s.st = .idle) : s.stepsLeft = 0 := by
  rw [State.stepsLeft, h]

/-- Every core step brings the rest nearer. -/
theorem stepsLeft_perform {c : CoreStep} (hc : c.enabled s = true) : (c.perform s).stepsLeft < s.stepsLeft := by
  cases c with
  | blkRound =>
    obtain ⟨hst, hr⟩ := (blkRound_enabled_iff s).mp hc
    rw [CoreStep.perform, stepsLeft_of_blkRun (s := s.roundStep) hst, stepsLeft_of_blkRun hst, roundStep_rnd]
    bv_omega
  | blkDone =>
    obtain ⟨hst, hr⟩ := (blkDone_enabled_iff s).mp hc
    rw [CoreStep.perform, stepsLeft_of_idle (blockDone_st s), stepsLeft_of_blkRun hst, hr]
    decide
  | sessTake =>
    obtain ⟨hst, -⟩ := (sessTake_enabled_iff s).mp hc
    have hpacked : s.blockPacked = true := by
      rw [CoreStep.enabled, hst] at hc
      exact hc
    have hempty : s.takeInput.blockPacked = false := by simp [State.blockPacked]
    rw [CoreStep.perform, stepsLeft_of_sessRun (takeInput_st s), stepsLeft_of_sessWait hst, hpacked, hempty, takeInput_ocnt, takeInput_rnd]
    split <;> decide
  | sessRound =>
    obtain ⟨hst, hr⟩ := (sessRound_enabled_iff s).mp hc
    have hpacked : s.roundStep.blockPacked = s.blockPacked := rfl
    rw [CoreStep.perform, stepsLeft_of_sessRun (s := s.roundStep) hst, stepsLeft_of_sessRun hst, hpacked, roundStep_ocnt, roundStep_rnd]
    have hlt : 32 - (s.rnd + 1).toNat < 32 - s.rnd.toNat := by bv_omega
    exact Nat.add_lt_add_right hlt _
  | sessEmit =>
    obtain ⟨hst, hr, ho⟩ := (sessEmit_enabled_iff s).mp hc
    have hpacked : s.emitOutput.blockPacked = s.blockPacked := rfl
    rw [CoreStep.perform, stepsLeft_of_sessWait (emitOutput_st s), stepsLeft_of_sessRun hst, hpacked, emitOutput_ocnt, ho, hr]
    split <;> decide
  | sessClose =>
    obtain ⟨hst, -, hp⟩ := (sessClose_enabled_iff s).mp hc
    have hempty : s.blockPacked = false := by simp [State.blockPacked, hp]
    rw [CoreStep.perform, stepsLeft_of_idle (closeSession_st s), stepsLeft_of_sessWait hst, hempty]
    exact Nat.one_pos

/-- Only a rest ends a silent run, and it is reached within the bound. -/
theorem exists_run_atRest (hin : s.inputs = []) : ∃ n t, n ≤ s.stepsLeft ∧ core.run n s = .next t ∧ t.atRest = true := by
  induction hn : s.stepsLeft using Nat.strong_induction_on generalizing s with
  | _ n ih =>
    cases hc : s.coreStep? with
    | none => exact ⟨0, s, Nat.zero_le _, rfl, by simp [State.atRest, hin, hc]⟩
    | some c =>
      have hen := enabled_of_coreStep? s hc
      have hlt := stepsLeft_perform hen
      have hstep : step s = .next (c.perform s) := step_of_silent hin hen
      have hin' : (c.perform s).inputs = [] := by rw [← coreTurn_of_enabled hen, coreTurn_inputs, hin]
      obtain ⟨m, t, hm, hrun, hrest⟩ := ih _ (hn ▸ hlt) hin' rfl
      exact ⟨m + 1, t, by omega, (run_succ m hstep).trans hrun, hrest⟩

/-! ## What the core looks at -/

/-- The state without the model's own fields, which the core does not look at (entries 1 and 4). -/
def State.device (s : State) : State := { s with inputs := [], rdata := none }

theorem coreTurn_device (s : State) : s.device.coreTurn = s.coreTurn.device :=
  coreTurn_comm State.device rfl fun c _ => by cases c <;> rfl

theorem coreStep?_device (s : State) : s.device.coreStep? = s.coreStep? := rfl

/-- While the program stays where it is, the host's moves leave the device alone, and the core's are its turns. -/
theorem device_of_move {h h' : Hosted} {a : Agent} (e : h.move a = .next h') (hp : h'.program = h.program) :
    (a = .core ∧ h'.dev.device = h.dev.device.coreTurn) ∨ (a = .host ∧ h'.dev.device = h.dev.device) := by
  obtain ⟨ha, rfl⟩ | ⟨ha, -, rfl⟩ | ⟨ha, c, rest, -, rfl⟩ | ⟨ha, w, rest, s, hprog, -, rfl⟩ := move_cases e
  · exact .inl ⟨ha, (coreTurn_device _).symm⟩
  · exact .inr ⟨ha, rfl⟩
  · exact .inr ⟨ha, rfl⟩
  · exact absurd (hp.trans hprog) List.ne_cons_self

section FairRun
variable {r : Nat → Hosted} {a : Nat → Agent} {n m : Nat}

/-- While the program stays where it is, each move of the run is the core's turn or leaves the device alone. -/
theorem device_of_run (hrun : Hosted.isRun r a) (hstay : ∀ m, n ≤ m → (r m).program = (r n).program) (hm : n ≤ m) :
    (a m = .core ∧ (r (m + 1)).dev.device = (r m).dev.device.coreTurn) ∨
    (a m = .host ∧ (r (m + 1)).dev.device = (r m).dev.device) :=
  device_of_move (hrun m) ((hstay (m + 1) (Nat.le_succ_of_le hm)).trans (hstay m hm).symm)

/-- Until the core moves, the device stays as it is. -/
theorem device_of_waiting (hrun : Hosted.isRun r a) (hstay : ∀ m, n ≤ m → (r m).program = (r n).program) (hm : n ≤ m)
    (hwait : ∀ k, m ≤ k → (r k).dev.device.stepsLeft ≥ (r m).dev.device.stepsLeft) {c : CoreStep}
    (hc : c.enabled (r m).dev.device = true) : ∀ k, m ≤ k → a k = .host ∧ (r k).dev.device = (r m).dev.device := by
  have hhost (k : Nat) (hk : m ≤ k) (he : (r k).dev.device = (r m).dev.device) :
      a k = .host ∧ (r (k + 1)).dev.device = (r m).dev.device := by
    obtain ⟨-, hcore⟩ | ⟨ha, hdev⟩ := device_of_run hrun hstay (hm.trans hk)
    · have hlt := stepsLeft_perform hc
      rw [← coreTurn_of_enabled hc, ← he, ← hcore, he] at hlt
      exact absurd hlt (Nat.not_lt.mpr (hwait (k + 1) (Nat.le_succ_of_le hk)))
    · exact ⟨ha, hdev.trans he⟩
  intro k hk
  have he : (r k).dev.device = (r m).dev.device := by
    induction k, hk using Nat.le_induction with
    | base => rfl
    | succ k hk ih =>
      obtain ⟨-, hdev⟩ := hhost k hk ih
      exact hdev
  obtain ⟨ha, -⟩ := hhost k hk he
  exact ⟨ha, he⟩

/-- An enabled core step is taken some time, by fairness, and the measure falls. -/
theorem exists_stepsLeft_lt (hrun : Hosted.isRun r a) (hfair : Hosted.fair r a) (hstay : ∀ m, n ≤ m → (r m).program = (r n).program)
    (hm : n ≤ m) {c : CoreStep} (hc : c.enabled (r m).dev = true) :
    ∃ k, m ≤ k ∧ (r k).dev.device.stepsLeft < (r m).dev.device.stepsLeft := by
  by_contra hno
  have hwait (k : Nat) (hk : m ≤ k) : (r k).dev.device.stepsLeft ≥ (r m).dev.device.stepsLeft :=
    Nat.not_lt.mp fun hlt => hno ⟨k, hk, hlt⟩
  have hhost := device_of_waiting hrun hstay hm hwait hc
  have henabled (k : Nat) (hk : m ≤ k) : c.enabled (r k).dev = true := by
    obtain ⟨-, he⟩ := hhost k hk
    have hc' : c.enabled (r k).dev.device = true := by rw [he]; exact hc
    exact hc'
  obtain ⟨k, hk, hcore⟩ := hfair m c henabled
  obtain ⟨ha, -⟩ := hhost k hk
  cases hcore.symm.trans ha

/-- The measure falls until no step is enabled. -/
theorem exists_rest (hrun : Hosted.isRun r a) (hfair : Hosted.fair r a) (hstay : ∀ m, n ≤ m → (r m).program = (r n).program)
    (hm : n ≤ m) : ∃ k, n ≤ k ∧ (r k).dev.coreStep? = none := by
  induction hl : (r m).dev.device.stepsLeft using Nat.strong_induction_on generalizing m with
  | _ l ih =>
    cases hc : (r m).dev.coreStep? with
    | none => exact ⟨m, hm, hc⟩
    | some c =>
      obtain ⟨k, hk, hlt⟩ := exists_stepsLeft_lt hrun hfair hstay hm (enabled_of_coreStep? _ hc)
      exact ih _ (hl ▸ hlt) (hm.trans hk) rfl

/-- A rest lasts: the core's turns change nothing, and the host's moves leave the device alone. -/
theorem rest_lasts (hrun : Hosted.isRun r a) (hstay : ∀ m, n ≤ m → (r m).program = (r n).program) (hm : n ≤ m)
    (hrest : (r m).dev.coreStep? = none) : ∀ k, m ≤ k → (r k).dev.coreStep? = none := by
  intro k hk
  induction k, hk using Nat.le_induction with
  | base => exact hrest
  | succ k hk ih =>
    have hturn : (r k).dev.device.coreTurn = (r k).dev.device := by
      rw [State.coreTurn, coreStep?_device, ih]
    have hdev : (r (k + 1)).dev.device = (r k).dev.device := by
      obtain ⟨-, h⟩ | ⟨-, h⟩ := device_of_run hrun hstay (hm.trans hk)
      · exact h.trans hturn
      · exact h
    rw [← coreStep?_device, hdev, coreStep?_device, ih]

end FairRun

/-- Settles O50: the measure is at most 66, and each fair run lowers it until the core rests. -/
theorem silentHostRunFinishes : Obligations.SilentHostRunFinishes := by
  refine ⟨fun s hin => ?_, fun r a n hrun hfair hstay => ?_⟩
  · obtain ⟨n, t, hn, hrun, hrest⟩ := exists_run_atRest hin
    exact ⟨n, t, hn.trans (stepsLeft_le s), hrun, hrest⟩
  · obtain ⟨m, hm, hrest⟩ := exists_rest hrun hfair hstay (Nat.le_refl n)
    have hrest' := rest_lasts hrun hstay hm hrest
    refine ⟨m, hm, fun k hk => ⟨hrest' k hk, fun hp => ?_⟩⟩
    rw [Hosted.finished, hrest' k hk, hstay k (hm.trans hk), hp]
    rfl

end Sys2Proof.Machine
end

/-! PROOFS, continued: stalls (R246, R312). First a stalled session under core turns and STATUS reads; then the states in which a wait loop is
hopeless, which the core's turns keep and in which the loop's poll does not end it; then a host that leaves the output stall as it is. -/

section
namespace Sys2Proof.Machine

variable {s t : State} {h h' : Hosted}

/-! ## A stalled session under core turns and STATUS reads (R246) -/

/-- A block is finished in the datapath, and OBUF is unread. -/
abbrev State.stalled (s : State) : Prop := s.st = .sessRun ∧ s.rnd = 32#6 ∧ s.ocnt ≠ 0#4

/-- A stalled session, but for RDATA, which is as before or shows its STATUS. -/
def State.shows (s t : State) : Prop := t = s ∨ t = s.answer s.statusWord

theorem coreTurn_of_stalled (h : s.stalled) : s.coreTurn = s := by
  obtain ⟨hst, hr, ho⟩ := h
  have hpos : 0#4 < s.ocnt := by bv_omega
  rw [State.coreTurn, coreStep?_of_hold (.inr (.inr ⟨hst, hr, hpos⟩))]

/-- Either turn leaves a stalled session as it is, or shows its STATUS. -/
theorem step_of_stalled {u : Turn} {us : List Turn} (h : s.stalled) (hu : u = .core ∨ u = .host (encode .rdStatus)) :
    ∃ t : State, s.shows t ∧ step (s.withInputs (u :: us)) = .next (t.withInputs us) := by
  obtain rfl | rfl := hu
  · have hturn : (s.withInputs us).coreTurn = s.withInputs us := coreTurn_of_stalled (s := s.withInputs us) h
    exact ⟨s, .inl rfl, (step_of_core (s.withInputs (.core :: us)) rfl).trans (congrArg _ hturn)⟩
  · exact ⟨s.answer s.statusWord, .inr rfl, step_of_encode .rdStatus us⟩

theorem State.shows.stalled (hs : s.shows t) (h : s.stalled) : t.stalled := by
  obtain rfl | rfl := hs <;> exact h

theorem State.shows.trans {u : State} (hs : s.shows t) (ht : t.shows u) : s.shows u := by
  obtain rfl | rfl := hs
  · exact ht
  · obtain rfl | rfl := ht <;> exact .inr rfl

theorem run_of_stalled (us : List Turn) (h : s.stalled) (hus : ∀ u ∈ us, u = .core ∨ u = .host (encode .rdStatus)) :
    ∃ t : State, s.shows t ∧ core.run us.length (s.withInputs us) = .next (t.withInputs []) := by
  induction us generalizing s with
  | nil => exact ⟨s, .inl rfl, rfl⟩
  | cons u us ih =>
    obtain ⟨hu, hrest⟩ := List.forall_mem_cons.mp hus
    obtain ⟨t, ht, hstep⟩ := step_of_stalled (us := us) h hu
    obtain ⟨v, hv, hrun⟩ := ih (ht.stalled h) hrest
    exact ⟨v, ht.trans hv, (run_succ _ hstep).trans hrun⟩

/-! ## States in which a wait loop is hopeless (R312) -/

theorem emitBlocked_iff : s.emitBlocked = true ↔ s.st = .sessRun ∧ s.ocnt ≠ 0#4 := by
  have hpos : 0#4 < s.ocnt ↔ s.ocnt ≠ 0#4 := by constructor <;> intro <;> bv_omega
  simp [State.emitBlocked, State.outValid, hpos]

theorem outputBlocked_iff : s.outputBlocked = true ↔
    s.ocnt ≠ 0#4 ∧ (s.st = .sessRun ∨ (s.st = .sessWait ∧ s.pcnt ≠ 0#4)) := by
  have hpos : 0#4 < s.ocnt ↔ s.ocnt ≠ 0#4 := by constructor <;> intro <;> bv_omega
  have hpos' : 0#4 < s.pcnt ↔ s.pcnt ≠ 0#4 := by constructor <;> intro <;> bv_omega
  cases hst : s.st <;> simp [State.outputBlocked, State.session, State.outValid, hst, hpos, hpos']

/-- With OBUF unread, the core can only go on with the rounds of the block in the datapath. -/
theorem coreTurn_of_emitBlocked (h : s.emitBlocked = true) : s.coreTurn = s ∨ s.coreTurn = s.roundStep := by
  obtain ⟨hst, ho⟩ := emitBlocked_iff.mp h
  obtain ⟨e, -⟩ | ⟨-, e⟩ | ⟨⟨hst', -⟩, -⟩ | ⟨⟨hst', -⟩, -⟩ | ⟨⟨-, -, ho'⟩, -⟩ | ⟨⟨hst', -⟩, -⟩ := coreTurn_spec s
  · exact .inl e
  · exact .inr e
  · cases hst.symm.trans hst'
  · cases hst.symm.trans hst'
  · exact absurd ho' ho
  · cases hst.symm.trans hst'

/-- The core neither lifts an output stall nor sets DONE in it: the close needs an empty packer, the emit an empty OBUF. -/
theorem outputBlocked_coreTurn (h : s.outputBlocked = true) : s.coreTurn.outputBlocked = true ∧ s.coreTurn.done = s.done := by
  obtain ⟨ho, hst⟩ := outputBlocked_iff.mp h
  obtain hst | ⟨hst, hp⟩ := hst
  · obtain e | e := coreTurn_of_emitBlocked (emitBlocked_iff.mpr ⟨hst, ho⟩) <;> rw [e]
    · exact ⟨h, rfl⟩
    · exact ⟨h, rfl⟩
  · obtain ⟨e, -⟩ | ⟨⟨hst', -⟩, -⟩ | ⟨⟨hst', -⟩, -⟩ | ⟨-, e⟩ | ⟨⟨hst', -⟩, -⟩ | ⟨⟨-, -, hp'⟩, -⟩ := coreTurn_spec s
    · rw [e]
      exact ⟨h, rfl⟩
    · simp [hst] at hst'
    · cases hst.symm.trans hst'
    · rw [e]
      exact ⟨outputBlocked_iff.mpr ⟨ho, .inl (takeInput_st s)⟩, rfl⟩
    · cases hst.symm.trans hst'
    · exact absurd hp' hp

theorem hopeless_done_iff : WaitLoop.done.hopeless s = true ↔ s.done = false ∧ (s.st = .idle ∨ s.outputBlocked = true) := by
  simp [WaitLoop.hopeless]

theorem hopeless_inReady_iff :
    WaitLoop.inReady.hopeless s = true ↔ s.st = .idle ∨ (s.emitBlocked = true ∧ s.pcnt = 8#4) := by
  simp [WaitLoop.hopeless]

theorem hopeless_outValid_iff : WaitLoop.outValid.hopeless s = true ↔ s.st = .idle ∧ s.ocnt = 0#4 := by
  simp [WaitLoop.hopeless]

/-- A core turn leaves a hopeless wait hopeless. -/
theorem hopeless_coreTurn {c : WaitLoop} (h : c.hopeless s = true) : c.hopeless s.coreTurn = true := by
  have hidle (hst : s.st = .idle) : c.hopeless s.coreTurn = true := by rwa [coreTurn_of_idle s hst]
  cases c with
  | idle => obtain e | e := coreTurn_of_emitBlocked h <;> rw [e] <;> exact h
  | done =>
    obtain ⟨hdone, hst | hblocked⟩ := hopeless_done_iff.mp h
    · exact hidle hst
    · obtain ⟨hblocked', hdone'⟩ := outputBlocked_coreTurn hblocked
      exact hopeless_done_iff.mpr ⟨hdone'.trans hdone, .inr hblocked'⟩
  | inReady =>
    obtain hst | ⟨hblocked, -⟩ := hopeless_inReady_iff.mp h
    · exact hidle hst
    · obtain e | e := coreTurn_of_emitBlocked hblocked <;> rw [e] <;> exact h
  | outValid =>
    obtain ⟨hst, -⟩ := hopeless_outValid_iff.mp h
    exact hidle hst
  | closed =>
    obtain ⟨hblocked, -⟩ := outputBlocked_coreTurn h
    exact hblocked

/-- The poll of a hopeless wait does not end it. -/
theorem not_ends_of_hopeless {c : WaitLoop} (h : c.hopeless s = true) : c.ends s.statusWord = false := by
  rw [ends_statusWord]
  cases c with
  | idle =>
    obtain ⟨hst, -⟩ := emitBlocked_iff.mp h
    simp [State.busy, hst]
  | done =>
    obtain ⟨hdone, -⟩ := hopeless_done_iff.mp h
    exact hdone
  | inReady =>
    obtain hst | ⟨-, hp⟩ := hopeless_inReady_iff.mp h
    · simp [State.inReady, State.session, hst]
    · simp [State.inReady, hp]
  | outValid =>
    obtain ⟨-, ho⟩ := hopeless_outValid_iff.mp h
    simp [State.outValid, ho]
  | closed =>
    obtain ⟨-, hst | ⟨hst, -⟩⟩ := outputBlocked_iff.mp h <;> simp [State.session, hst]

/-! ## Programs that never end (R255, R312) -/

/-- What every move keeps and no ended program has makes every run hang. -/
theorem hangs_of_kept {P : Hosted → Prop} (h0 : P h) (hmove : ∀ {h h' a}, P h → h.move a = .next h' → P h')
    (hprogram : ∀ {h}, P h → h.program ≠ []) : h.hangs := by
  intro r a hr hrun n
  subst hr
  have hn : P (r n) := run_induct (P := P) hrun (n := 0) h0 (fun _ _ hp _ e => hmove hp e) n (Nat.zero_le n)
  rw [Hosted.finished, List.isEmpty_eq_false_iff.mpr (hprogram hn), Bool.false_and]

/-- The program is in a wait loop that is hopeless. -/
abbrev Hosted.waitsInVain (h : Hosted) (c : WaitLoop) (rest : List HostOp) : Prop :=
  h.program = .poll c :: rest ∧ c.hopeless h.dev = true

theorem Hosted.waitsInVain.move {c : WaitLoop} {rest : List HostOp} {a : Agent} (hw : h.waitsInVain c rest) (e : h.move a = .next h') :
    h'.waitsInVain c rest := by
  obtain ⟨hp, hh⟩ := hw
  cases a with
  | core =>
    rw [move_core] at e
    obtain rfl := Host.Outcome.next.inj e
    exact ⟨hp, hopeless_coreTurn (s := h.dev.withInputs []) hh⟩
  | host =>
    rw [move_host_of_poll h hp, not_ends_of_hopeless hh] at e
    obtain rfl := Host.Outcome.next.inj e
    exact ⟨rfl, hh⟩

/-! ## A host that leaves the output stall (R246, R312 (a)) -/

theorem emitBlocked_coreTurn (h : s.emitBlocked = true) : s.coreTurn.emitBlocked = true := by
  obtain e | e := coreTurn_of_emitBlocked h <;> rw [e] <;> exact h

/-- Of what a transaction other than ABORT can do here, only a pop changes st or OCNT. -/
theorem HostWork.emitBlocked {bytes : List Byte} (hw : HostWork s bytes [] t) (h : s.emitBlocked = true) : t.emitBlocked = true := by
  cases hw <;> exact h

theorem emitBlocked_of_hostTransaction {w : Transaction} (h : s.emitBlocked = true) (hw : decode w ≠ .ok .rdDout ∧ decode w ≠ .ok .abort)
    (e : hostTransaction w s = .next t) : t.emitBlocked = true := by
  obtain ⟨hst, -⟩ := emitBlocked_iff.mp h
  obtain ⟨hread, habort⟩ := hw
  have hne : w ≠ encode .abort := by
    rintro rfl
    exact habort (decode_encode .abort)
  have hwork := hostWork_of_hostTransaction (by simp [hst]) hne e
  rw [poppedByte_of_no_pop fun hd => absurd hd hread] at hwork
  exact hwork.emitBlocked h

/-- OBUF is unread with a block in the datapath, and the program only has operations that leave this so. -/
abbrev Hosted.leavesStall (h : Hosted) : Prop := h.dev.emitBlocked = true ∧ ∀ op ∈ h.program, op.leavesOutput

theorem Hosted.leavesStall.move {a : Agent} (hl : h.leavesStall) (e : h.move a = .next h') : h'.leavesStall := by
  obtain ⟨hb, hops⟩ := hl
  obtain ⟨-, rfl⟩ | ⟨-, -, rfl⟩ | ⟨-, c, rest, hp, rfl⟩ | ⟨-, w, rest, s, hp, hs, rfl⟩ := move_cases e
  · exact ⟨emitBlocked_coreTurn (s := h.dev.withInputs []) hb, hops⟩
  · exact ⟨hb, hops⟩
  · rw [hp] at hops
    refine ⟨hb, ?_⟩
    split
    · exact fun op hop => hops op (List.mem_cons_of_mem _ hop)
    · exact hops
  · rw [hp] at hops
    obtain ⟨hw, hrest⟩ := List.forall_mem_cons.mp hops
    exact ⟨emitBlocked_of_hostTransaction (s := h.dev.withInputs []) hb hw hs, hrest⟩

/-! ## A host that fills the packer behind the stall (R312 (a)) -/

/-- Behind the stall, `n` further pushes leave the packer full: each is stored, or dropped because it is full already. -/
structure State.fillsWith (s : State) (n : Nat) : Prop where
  blocked : s.emitBlocked = true
  unfinished : s.fin = false
  pcnt_le : s.pcnt.toNat ≤ 8
  fills : 8 ≤ s.pcnt.toNat + n
  len_lt : s.len.toNat + n < 2 ^ 32

theorem State.fillsWith.coreTurn {n : Nat} (h : s.fillsWith n) : s.coreTurn.fillsWith n := by
  obtain e | e := coreTurn_of_emitBlocked h.blocked <;> rw [e]
  · exact h
  · exact { h with }

theorem State.fillsWith.push {n : Nat} (h : s.fillsWith (n + 1)) {x : Byte} (e : hostTransaction (pushTransaction x) s = .next t) :
    t.fillsWith n := by
  obtain ⟨hb, hf, hle, hfills, hlen⟩ := h
  obtain ⟨hst, -⟩ := emitBlocked_iff.mp hb
  rw [hostTransaction_push_of_session x ((session_iff s).mpr (.inr hst)) hf (by bv_omega)] at e
  split at e
  next hfull =>
    obtain rfl := Host.Outcome.next.inj e
    have hfull' : s.pcnt.toNat = 8 := by rw [hfull]; rfl
    exact ⟨hb, hf, hle, hfull' ▸ Nat.le_add_right 8 n, by rw [raise_len]; omega⟩
  next hnotFull =>
    obtain rfl := Host.Outcome.next.inj e
    have hp : (s.pcnt + 1).toNat = s.pcnt.toNat + 1 := by bv_omega
    have hl : (s.len + 1).toNat = s.len.toNat + 1 := by bv_omega
    refine ⟨hb, hf, ?_, ?_, ?_⟩
    · rw [pushByte_pcnt, hp]; bv_omega
    · rw [pushByte_pcnt, hp]; omega
    · rw [pushByte_len, hl]; omega

/-- With the packer full behind the stall, waiting for IN_READY is hopeless. -/
theorem State.fillsWith.hopeless (h : s.fillsWith 0) : WaitLoop.inReady.hopeless s = true := by
  obtain ⟨hb, -, hle, hfills, -⟩ := h
  exact hopeless_inReady_iff.mpr (.inr ⟨hb, BitVec.eq_of_toNat_eq (Nat.le_antisymm hle hfills)⟩)

/-- The program pushes enough bytes behind the stall to fill the packer, and then waits for IN_READY. -/
abbrev Hosted.fillsAndWaits (h : Hosted) (rest : List HostOp) : Prop :=
  ∃ xs : List Byte, h.program = pushOps xs ++ .poll .inReady :: rest ∧ h.dev.fillsWith xs.length

theorem Hosted.fillsAndWaits.move {rest : List HostOp} {a : Agent} (hw : h.fillsAndWaits rest) (e : h.move a = .next h') :
    h'.fillsAndWaits rest := by
  obtain ⟨xs, hp, hfills⟩ := hw
  cases a with
  | core =>
    rw [move_core] at e
    obtain rfl := Host.Outcome.next.inj e
    exact ⟨xs, hp, State.fillsWith.coreTurn (s := h.dev.withInputs []) { hfills with }⟩
  | host =>
    cases xs with
    | nil =>
      rw [move_host_of_poll h hp, not_ends_of_hopeless hfills.hopeless] at e
      obtain rfl := Host.Outcome.next.inj e
      exact ⟨[], rfl, { hfills with }⟩
    | cons x xs =>
      rw [move_host_of_issue h hp] at e
      obtain ⟨s, hs, rfl⟩ := lift_eq_next e
      exact ⟨xs, rfl, State.fillsWith.push (s := h.dev.withInputs []) { hfills with } hs⟩

/-! ## The statement -/

/-- Settles O51: a stall is a state that the core and STATUS reads leave alone; a hopeless wait, a host that leaves the stall, and one that fills
the packer behind it are each kept by every move. -/
theorem stalledSessionStaysStalled : Obligations.StalledSessionStaysStalled := by
  refine ⟨fun s us hst hr ho hus => ?stays, fun h c rest hp hh => ⟨?hangs, fun r a hr hrun n => ?program⟩,
    fun h rest hp hst hf hpcnt => ?inReady, fun r a hb hops hrun n => ?stall, fun h xs rest hp hxs hb hf hle hlen => ?fills⟩
  case stays =>
    obtain ⟨t, ht, hrun⟩ := run_of_stalled us ⟨hst, hr, ho⟩ hus
    refine ⟨t.withInputs [], hrun, ?_⟩
    obtain rfl | rfl := ht
    · exact ⟨rfl, .inl rfl⟩
    · exact ⟨rfl, .inr rfl⟩
  case hangs =>
    exact hangs_of_kept (P := fun h => h.waitsInVain c rest) ⟨hp, hh⟩ (fun hw e => hw.move e) fun ⟨hp, _⟩ => by simp [hp]
  case program =>
    have hn : (r n).waitsInVain c rest :=
      run_induct (P := fun h => h.waitsInVain c rest) hrun (n := 0) (hr ▸ ⟨hp, hh⟩) (fun _ _ hw _ e => hw.move e) n (Nat.zero_le n)
    obtain ⟨hpn, -⟩ := hn
    exact hpn.trans hp.symm
  case inReady =>
    have hends : WaitLoop.inReady.ends h.dev.statusWord = true := by
      rw [ends_statusWord]
      exact (inReady_iff h.dev).mpr ⟨.inr hst, hf, hpcnt⟩
    rw [move_host_of_poll h hp, hends]
    exact ⟨_, rfl⟩
  case stall =>
    have hn : (r n).leavesStall :=
      run_induct (P := Hosted.leavesStall) hrun (n := 0) ⟨hb, hops⟩ (fun _ _ hl _ e => hl.move e) n (Nat.zero_le n)
    obtain ⟨hbn, -⟩ := hn
    obtain ⟨hst, -⟩ := emitBlocked_iff.mp hbn
    exact ⟨hbn, by simp [CoreStep.enabled, hst]⟩
  case fills =>
    exact hangs_of_kept (P := fun h => h.fillsAndWaits rest)
      ⟨xs, hp, ⟨hb, hf, hle, by rw [hxs]; exact Nat.le_add_left 8 _, by rw [hxs]; exact hlen⟩⟩ (fun hw e => hw.move e) fun ⟨xs, hp, _⟩ => by simp [hp]

end Sys2Proof.Machine
end
